-- ==== Sys2Proof/Word.lean ====
section
/-! DEFINITION. The widths the spec names (00_scope.md R8, 10_state.md, 20_memory.md R60). -/

namespace Sys2Proof

/-- A 32-bit register or command word (10_state.md, 30_encoding.md R90). -/
abbrev Word := BitVec 32

/-- An 8-bit field: input and output codes, modifier, header, axis values (R30, R34). -/
abbrev Byte := BitVec 8

/-- One pulse duration (10_state.md R29, D6). -/
abbrev Dur := BitVec 16

/-- A 12-bit byte address of the host register space (20_memory.md R60). -/
abbrev BusAddr := BitVec 12

/-- A 6-bit matrix code, row in bits 5:3 and column in bits 2:0 (00_scope.md R11). -/
abbrev Coord := BitVec 6

end Sys2Proof
end

