-- ==== Sys2Proof/Config.lean ====
section
/-! DEFINITION. What an implementation fixes (00_scope.md R7), and the values the spec leaves open.

The build parameters that have a default are one record, `Params`, which State carries and no step changes
(log entry 1, DESIGN CHOICE, safe). The values the spec leaves open are opaque constants without a body. -/

namespace Sys2Proof

/-- The build parameters of 00_scope.md R7 that a rule uses. -/
structure Params where
  /-- PB_DEPTH, pulse-buffer entries. -/
  pbDepth : Nat
  /-- XLAT_DEPTH, translation-table entries. -/
  xlatDepth : Nat
  /-- CODE_CAPS, the reserved output code that toggles caps lock. -/
  codeCaps : Byte
  /-- CODE_RESTORE, the reserved output code of the restore line. -/
  codeRestore : Byte
  /-- CODE_RESET, the reserved output code that re-enters the initial state. -/
  codeReset : Byte
  /-- LSHIFT_COORD, the left-shift key's coordinate. -/
  lshiftCoord : Coord
  /-- RSHIFT_COORD, the right-shift key's coordinate. -/
  rshiftCoord : Coord
  /-- T_SU, clocks from stable selects and data to the strobe. -/
  tSu : Nat
  /-- T_STB, clocks the strobe is high. -/
  tStb : Nat
  /-- T_HD, clocks selects and data are held after the strobe. -/
  tHd : Nat
  /-- T_RST, clocks the array's reset pulse is high. -/
  tRst : Nat
deriving DecidableEq, Repr

/-- The defaults of 00_scope.md R7. -/
def Params.default : Params :=
  { pbDepth := 64, xlatDepth := 256
    codeCaps := 0x40#8, codeRestore := 0x41#8, codeReset := 0x42#8
    lshiftCoord := 0x0F#6, rshiftCoord := 0x34#6
    tSu := 2, tStb := 2, tHd := 2, tRst := 2 }

/-- ID reads this constant (10_state.md R20). -/
def Config.idWord : Word := 0x4349524B#32

/-! The positions of the payload's fields (30_encoding.md R112, R114; D19, D20). The spec asks that a model keep the
layout a configuration that a captured frame can settle (93_implementation_defined.md I17): it is written here only
(log entry 13). -/

/-- Lowest payload bit of the checksum nibble CHK (R112). -/
def Config.chkLo : Nat := 24
/-- Lowest payload bit of the header HDR (R112). -/
def Config.hdrLo : Nat := 16
/-- Lowest payload bit of the modifier MOD (R112). -/
def Config.modLo : Nat := 8
/-- Lowest payload bit of the key code CODE (R112). -/
def Config.codeLo : Nat := 0
/-- Lowest payload bit of the joystick-as-keyboard x6 (R114). -/
def Config.x6Lo : Nat := 10
/-- Lowest payload bit of the joystick-as-keyboard y6 (R114). -/
def Config.y6Lo : Nat := 4

/-- The value the n-th draw gives a host read of a result register while BUSY = 1: any 32-bit value
(20_memory.md R68, I20). Log entry 3: free value. -/
opaque Config.busyRead : Nat → Word

/-- How many host accesses land between ACCEPT and EXECUTE, at the n-th draw: any finite number
(44_control.md R241, I21). Every accepted command, and every power-on reset, has a draw of its own. Log entry 4: free
value. -/
opaque Config.accessesBeforeExecute : Nat → Nat

/-- Any 28-bit value; `Config.joykbSentinel` keeps of it what R7 demands. Log entry 2: free value. -/
opaque Config.sentinelDraw : BitVec 28

/-- JOYKB_SENTINEL: any value in 0x0000001..0xFFFFFFF, the parameter the spec leaves OPEN (00_scope.md R7, D22). -/
def Config.joykbSentinel : Word :=
  if Config.sentinelDraw = 0#28 then 1#32 else Config.sentinelDraw.setWidth 32

end Sys2Proof
end

