-- ==== Sys2Proof/Syntax.lean ====
section
/-! DEFINITION. The command set (opcode_table.json, 30_encoding.md R91 to R98), the events of the host's bus program
(20_memory.md R63, R64; 30_encoding.md R100, R101), and assembler lines (R100, R101). -/

namespace Sys2Proof

/-- The nine commands, one constructor per row of opcode_table.json. Operands are the fields of R102, copied as is. -/
inductive Instr where
  /-- NOP (30_encoding.md R92, 44_control.md R242). -/
  | nop
  /-- DECODE, automatic; d = the dispatch bit D (R93, 40_frame_decode.md R157). -/
  | decode (d : Bool)
  /-- DECODE.K, keyboard only (R93, R158). -/
  | decodeK (d : Bool)
  /-- DECODE.J, joystick only (R93, R159). -/
  | decodeJ (d : Bool)
  /-- DISPATCH (R94, 42_dispatch.md R193). -/
  | dispatch
  /-- APPLY code, p, a (R95, 43_matrix.md R222). -/
  | apply (code : Byte) (p : Bool) (a : Bool)
  /-- MRESET (R96, R223). -/
  | mreset
  /-- REARM (R97, R160). -/
  | rearm
  /-- LOOKUP code, s (R98, R192). -/
  | lookup (code : Byte) (sh : Bool)
deriving DecidableEq, Repr

/-- One event of the world outside the engine, in the order the host issues them (20_memory.md R73a, 44_control.md R244).
`wait` is the pseudo-instruction WAIT of R101; `powerOnReset` is the fall and rise of rst_n (70_reset_and_hazards.md R284). -/
inductive HostEvent where
  | read (addr : BusAddr)
  | write (addr : BusAddr) (v : Word)
  | wait
  | powerOnReset
deriving DecidableEq, Repr

/-- A code operand of an assembler line: a number or one of the five symbols of 30_encoding.md R100. -/
inductive AsmCode where
  | num (n : Nat)
  | caps
  | restore
  | reset
  | lshift
  | rshift
deriving DecidableEq, Repr

/-- An assembler line of 30_encoding.md R100, or a pseudo-instruction of R101. Numbers are as written; WellFormed checks them. -/
inductive AsmLine where
  | nop
  | decode (dispatch : Bool)
  | decodeK (dispatch : Bool)
  | decodeJ (dispatch : Bool)
  | dispatch
  | apply (code : AsmCode) (p a : Nat)
  | mreset
  | rearm
  | lookup (code : AsmCode) (sh : Nat)
  | wr (addr value : Nat)
  | rd (addr : Nat)
  | press (code : AsmCode)
  | release (code : AsmCode)
  | pressAs (code : AsmCode)
  | releaseAs (code : AsmCode)
  | toggleCaps
  | wait
deriving DecidableEq, Repr

end Sys2Proof
end

