-- ==== Sys2Proof/WellFormed.lean ====
section
/-! DEFINITION. What makes a command, an assembler line and a set of build parameters well formed. -/

namespace Sys2Proof

/-- Every operand of every command is an unsigned field copied as is (30_encoding.md R102), and the fields' widths are the
constructors' types: every term of `Instr` is a well-formed command. -/
def Instr.wf : Instr → Bool
  | .nop => true
  | .decode _ => true
  | .decodeK _ => true
  | .decodeJ _ => true
  | .dispatch => true
  | .apply _ _ _ => true
  | .mreset => true
  | .rearm => true
  | .lookup _ _ => true

/-- A code operand is 0..255 or a symbol (30_encoding.md R100). -/
def AsmCode.wf : AsmCode → Bool
  | .num n => decide (n < 256)
  | .caps | .restore | .reset | .lshift | .rshift => true

/-- The operand ranges of 30_encoding.md R100: codes 0..255; p, a and s 0 or 1; a 12-bit address; a 32-bit value. -/
def AsmLine.wf : AsmLine → Bool
  | .nop | .decode _ | .decodeK _ | .decodeJ _ | .dispatch | .mreset | .rearm => true
  | .apply c p a => c.wf && decide (p < 2) && decide (a < 2)
  | .lookup c sh => c.wf && decide (sh < 2)
  | .wr addr value => decide (addr < 4096) && decide (value < 2 ^ 32)
  | .rd addr => decide (addr < 4096)
  | .press c | .release c | .pressAs c | .releaseAs c => c.wf
  | .toggleCaps | .wait => true

/-- The constraints of 00_scope.md R7 on the build parameters. -/
def Params.wf (p : Params) : Bool :=
  decide (33 ≤ p.pbDepth) && decide (p.pbDepth ≤ 64) &&
  decide (1 ≤ p.xlatDepth) && decide (p.xlatDepth ≤ 256) &&
  decide (0x40 ≤ p.codeCaps.toNat) && decide (0x40 ≤ p.codeRestore.toNat) && decide (0x40 ≤ p.codeReset.toNat) &&
  decide (p.codeCaps ≠ p.codeRestore) && decide (p.codeCaps ≠ p.codeReset) && decide (p.codeRestore ≠ p.codeReset) &&
  decide (p.lshiftCoord ≠ p.rshiftCoord) &&
  decide (1 ≤ p.tSu) && decide (1 ≤ p.tStb) && decide (1 ≤ p.tHd) && decide (1 ≤ p.tRst)

end Sys2Proof
end

