-- ==== Sys2Proof/Decode.lean ====
section
/-! DEFINITION. Command decode (44_control.md R240, 30_encoding.md R90 to R99), the encoder, and the assembler
(R100, R101). Decoding reads the word only (R240). -/

namespace Sys2Proof

/-- OP = word[3:0] selects the command (30_encoding.md R90). -/
def opField (v : Word) : BitVec 4 := v.extractLsb' 0 4

/-- CODE = word[15:8] (30_encoding.md R102). -/
def codeField (v : Word) : Byte := v.extractLsb' 8 8

/-- Why a word is illegal, one name for each case of 30_encoding.md R99. -/
inductive Illegal where
  /-- OP is 0x7..0xF. -/
  | reservedOpcode
  /-- OP = 0x1 and MODE = 11. -/
  | reservedMode
  /-- A reserved bit of the format is 1. -/
  | reservedBits
deriving DecidableEq, Repr

/-- A row of opcode_table.json: the word is this command iff `word &&& mask = pattern` (44_control.md R240). -/
structure Row where
  mnemonic : String
  mask : Word
  pattern : Word
  /-- The command, its operand fields taken from the word (30_encoding.md R102). -/
  command : Word → Instr

/-- Whether the word is of this row (44_control.md R240). -/
def Row.accepts (r : Row) (v : Word) : Bool := v &&& r.mask == r.pattern

/-- opcode_table.json, row by row. -/
def opcodeTable : List Row :=
  [ ⟨"NOP",      0xFFFFFFFF#32, 0x00000000#32, fun _ => .nop⟩,
    ⟨"DECODE",   0xFFFFFFEF#32, 0x00000001#32, fun v => .decode (v.getLsbD 4)⟩,
    ⟨"DECODE.K", 0xFFFFFFEF#32, 0x00000021#32, fun v => .decodeK (v.getLsbD 4)⟩,
    ⟨"DECODE.J", 0xFFFFFFEF#32, 0x00000041#32, fun v => .decodeJ (v.getLsbD 4)⟩,
    ⟨"DISPATCH", 0xFFFFFFFF#32, 0x00000002#32, fun _ => .dispatch⟩,
    ⟨"APPLY",    0xFFFC00FF#32, 0x00000003#32, fun v => .apply (codeField v) (v.getLsbD 16) (v.getLsbD 17)⟩,
    ⟨"MRESET",   0xFFFFFFFF#32, 0x00000004#32, fun _ => .mreset⟩,
    ⟨"REARM",    0xFFFFFFFF#32, 0x00000005#32, fun _ => .rearm⟩,
    ⟨"LOOKUP",   0xFFFE00FF#32, 0x00000006#32, fun v => .lookup (codeField v) (v.getLsbD 16)⟩ ]

/-- The name of the refusal of a word that no row accepts (30_encoding.md R99). -/
def illegalReason (v : Word) : Illegal :=
  if 7 ≤ (opField v).toNat then .reservedOpcode
  else if opField v = 1#4 ∧ v.extractLsb' 5 2 = 3#2 then .reservedMode
  else .reservedBits

/-- classify(v) of 44_control.md R240: total on every word, rejecting by name. -/
def decode (v : Word) : Except Illegal Instr :=
  match opcodeTable.find? (fun r => r.accepts v) with
  | some r => .ok (r.command v)
  | none => .error (illegalReason v)

/-- The host's view of the decoder: the table's 32-bit word as this block is given it, one whole word (R90). -/
def decodeTableWord (nbits w : Nat) : Option Instr :=
  if nbits ≤ 32 then
    match decode (BitVec.ofNat 32 (w % 2 ^ nbits)) with
    | .ok i => some i
    | .error _ => none
  else none

/-- The word of a DECODE command from MODE and D (30_encoding.md R93). -/
def encodeDecode (mode : BitVec 2) (d : Bool) : Word :=
  (0#25 ++ mode ++ BitVec.ofBool d ++ 1#4 : BitVec 32)

/-- The command word of a command, from the formats of 30_encoding.md R92 to R98. -/
def encode : Instr → Word
  | .nop => 0x00000000#32
  | .decode d => encodeDecode 0#2 d
  | .decodeK d => encodeDecode 1#2 d
  | .decodeJ d => encodeDecode 2#2 d
  | .dispatch => 0x00000002#32
  | .apply code p a => (0#14 ++ BitVec.ofBool a ++ BitVec.ofBool p ++ code ++ 0#4 ++ 3#4 : BitVec 32)
  | .mreset => 0x00000004#32
  | .rearm => 0x00000005#32
  | .lookup code sh => (0#15 ++ BitVec.ofBool sh ++ code ++ 0#4 ++ 6#4 : BitVec 32)

/-- The byte address of CMD, where every command line writes its word (20_memory.md R61, 30_encoding.md R100). -/
def cmdAddr : BusAddr := 0x014#12

/-- The value of a code operand; the symbols stand for the build parameters (30_encoding.md R100). -/
def AsmCode.value (prm : Params) : AsmCode → Byte
  | .num n => BitVec.ofNat 8 n
  | .caps => prm.codeCaps
  | .restore => prm.codeRestore
  | .reset => prm.codeReset
  | .lshift => prm.lshiftCoord.setWidth 8
  | .rshift => prm.rshiftCoord.setWidth 8

/-- Every command line assembles to a write of its word to CMD (30_encoding.md R100). -/
def asmCommand (i : Instr) : HostEvent := .write cmdAddr (encode i)

/-- The assembler of 30_encoding.md R100 and R101; a line that is not well formed has no assembly. -/
def assemble (prm : Params) (l : AsmLine) : Option HostEvent :=
  if l.wf then
    some <| match l with
    | .nop => asmCommand .nop
    | .decode d => asmCommand (.decode d)
    | .decodeK d => asmCommand (.decodeK d)
    | .decodeJ d => asmCommand (.decodeJ d)
    | .dispatch => asmCommand .dispatch
    | .apply c p a => asmCommand (.apply (c.value prm) (decide (p = 1)) (decide (a = 1)))
    | .mreset => asmCommand .mreset
    | .rearm => asmCommand .rearm
    | .lookup c sh => asmCommand (.lookup (c.value prm) (decide (sh = 1)))
    | .wr addr value => .write (BitVec.ofNat 12 addr) (BitVec.ofNat 32 value)
    | .rd addr => .read (BitVec.ofNat 12 addr)
    | .press c => asmCommand (.apply (c.value prm) true false)
    | .release c => asmCommand (.apply (c.value prm) false false)
    | .pressAs c => asmCommand (.apply (c.value prm) true true)
    | .releaseAs c => asmCommand (.apply (c.value prm) false true)
    | .toggleCaps => asmCommand (.apply prm.codeCaps true false)
    | .wait => .wait
  else none

end Sys2Proof
end

