-- ==== Sys2Proof/Machine/State.lean ====
section
/-! DEFINITION. The machine's state as plain data (10_state.md), its reset value (70_reset_and_hazards.md R281), and the
reasons a step could stop. A register whose bits are separate fields with reserved bits between them is a structure of
its fields: a reserved bit is RAZ/WI (20_memory.md R62), so it has no storage. -/

namespace Sys2Proof.Machine

/-- CTRL (10_state.md R21). -/
structure Ctrl where
  kbdEn : Bool
  joyEn : Bool
  joyMarkBit : Bool
  joySkipInit : Bool
  modShiftMask : Byte
deriving DecidableEq, Repr

/-- STATUS (10_state.md R22). -/
structure Status where
  busy : Bool
  frameReady : Bool
  evNew : Bool
  err : Bool
  errOvf : Bool
  done : Bool
  invFault : Bool
deriving DecidableEq, Repr

/-- IRQ_EN (10_state.md R23). -/
structure IrqEn where
  evNewIe : Bool
  errIe : Bool
  doneIe : Bool
deriving DecidableEq, Repr

/-- ERR (10_state.md R24). -/
structure ErrReg where
  code : BitVec 4
  op : BitVec 4
  addr : BusAddr
deriving DecidableEq, Repr

/-- The ten timing window registers (10_state.md R27, R28). -/
structure Timing where
  khm : Word
  khs : Word
  kbm : Word
  ks0 : Word
  ks1 : Word
  ks2 : Word
  ks3 : Word
  jhm : Word
  js : Word
  jl : Word
deriving DecidableEq, Repr

/-- The block's storage arrays PB and XLAT (10_state.md R29, R30) as bytes at their bus byte addresses, in one canonical
form: addresses strictly rising, no entry equal to what an unlisted address reads as (log entry 9). -/
abbrev Memory := List Host.Cell

/-- The decoders' working registers (10_state.md R45): internal, reinitialised by each decoder run. -/
structure Work where
  idx : Nat
  acc : Word
  data : BitVec 16
  bits : Nat
  skip : Bool
deriving DecidableEq, Repr

/-- The level of the restore/NMI line (43_matrix.md R212). -/
inductive RestoreLevel where
  | low
  | released
deriving DecidableEq, Repr

/-- An event of the pin trace (00_scope.md R10). -/
inductive PinEvent where
  | xwrite (c : Coord) (v : Bool)
  | xreset
  | restore (level : RestoreLevel)
  | rearm
deriving DecidableEq, Repr

/-- The output pins' levels (10_state.md R47). irq_o is computed from STATUS and IRQ_EN (60_exceptions.md R256). -/
structure Pins where
  rowSel : BitVec 3
  colSel : BitVec 3
  data : Bool
  strobe : Bool
  xrst : Bool
  restoreOe : Bool
  rearm : Bool
deriving DecidableEq, Repr

/-- What the engine has in flight (10_state.md R46): the initial MRESET of power-on reset (70_reset_and_hazards.md R281),
or the accepted command word, `pending` of 44_control.md R241. -/
inductive Job where
  | initialReset
  | command (v : Word)
deriving DecidableEq, Repr

/-- Everything the spec gives the machine, with the host's side of the bus. -/
structure State where
  /-- The build parameters (00_scope.md R7). No step changes them. -/
  params : Params
  /-- CTRL, R21. -/
  ctrl : Ctrl
  /-- STATUS, R22. -/
  status : Status
  /-- IRQ_EN, R23. -/
  irqEn : IrqEn
  /-- ERR, R24. -/
  err : ErrReg
  /-- PB_COUNT.COUNT, R26. -/
  pbCount : BitVec 8
  /-- DIAG, R32. -/
  diag : Word
  /-- EV0, R33. -/
  ev0 : Word
  /-- EV1, R34. -/
  ev1 : Word
  /-- EV_RAW, R35. -/
  evRaw : Word
  /-- LOOKUP_RES, R36. -/
  lookupRes : Word
  /-- T_KHM to T_JL, R27 and R28. -/
  timing : Timing
  /-- PB and XLAT, R29 and R30. -/
  mem : Memory
  /-- capsLockEngaged, R40. -/
  caps : Bool
  /-- leftShiftHeld, R41. -/
  lheld : Bool
  /-- rightShiftHeld, R42. -/
  rheld : Bool
  /-- 1 = the restore/NMI line is driven low, R43. -/
  restore : Bool
  /-- M[0..63], bit c for crosspoint c, R44. -/
  matrix : BitVec 64
  /-- The decoders' working registers, R45. -/
  work : Work
  /-- The command being executed, R46 and 44_control.md R241. -/
  job : Option Job
  /-- The output pins, R47. -/
  pins : Pins
  /-- The pin trace, oldest event first (00_scope.md R10). -/
  trace : List PinEvent
  /-- The model's own: host accesses still to land before the engine executes `job` (log entry 4); 0 with no job. -/
  hold : Nat
  /-- The model's own: how many free values have been drawn (log entries 3 and 4). -/
  draws : Nat
  /-- The model's own: the host's bus program still to come, next event first (44_control.md R244; log entry 5). -/
  program : List HostEvent
  /-- The model's own: the values the host's reads returned, oldest first (log entry 5). -/
  reads : List Word
deriving DecidableEq, Repr

/-- Why a step could stop with a fault. It has no constructor: the block never stops. An error is a recorded status
(60_exceptions.md R250 to R254), no access has an error response (20_memory.md R62), and "Nothing in this core is fatal to
the process" (log entry 14, safe). -/
inductive Fault where
deriving DecidableEq, Repr

/-- Why a step could answer no meaning. -/
inductive Refusal where
  /-- Raised only by an arm of `exec` whose instruction has no meaning yet; no arm is (log entry 14, safe). -/
  | notModelled (mnemonic : String)
deriving DecidableEq, Repr

/-- The reset values of CTRL (10_state.md R21): 0x0000000F. -/
def Ctrl.reset : Ctrl :=
  { kbdEn := true, joyEn := true, joyMarkBit := true, joySkipInit := true, modShiftMask := 0#8 }

/-- The reset value of STATUS (10_state.md R22): 0x00000001. -/
def Status.reset : Status :=
  { busy := true, frameReady := false, evNew := false, err := false, errOvf := false, done := false, invFault := false }

/-- The reset values of the timing windows (10_state.md R28). -/
def Timing.reset : Timing :=
  { khm := 0x00640BB8#32, khs := 0x006405DC#32, kbm := 0x006401F4#32
    ks0 := 0x006401F4#32, ks1 := 0x006403E8#32, ks2 := 0x006405DC#32, ks3 := 0x006407D0#32
    jhm := 0x00640960#32, js := 0x00640258#32, jl := 0x006404B0#32 }

/-- The pins' levels at power-on reset (10_state.md R47). -/
def Pins.reset : Pins :=
  { rowSel := 0#3, colSel := 0#3, data := false, strobe := false, xrst := false, restoreOe := false, rearm := false }

/-- DESIGN CHOICE (log entry 8, unsafe): the spec leaves the working registers unspecified and unobservable (R45, R51). -/
def Work.reset : Work := { idx := 0, acc := 0#32, data := 0#16, bits := 0, skip := false }

/-- The block as rst_n rises (70_reset_and_hazards.md R281, 10_state.md R51): BUSY = 1 and the initial MRESET still to run.
`params` are the defaults of 00_scope.md R7; `hold`, `draws`, `program`, `reads` and `trace` are the model's own (log
entries 5 and 17, DESIGN CHOICE): `hold` is the draw of the initial MRESET, the free value number 0 (log entry 4). -/
def State.reset : State :=
  { params := Params.default
    ctrl := Ctrl.reset, status := Status.reset
    irqEn := { evNewIe := false, errIe := false, doneIe := false }
    err := { code := 0#4, op := 0#4, addr := 0#12 }
    pbCount := 0#8, diag := 0#32, ev0 := 0#32, ev1 := 0#32, evRaw := 0#32, lookupRes := 0#32
    timing := Timing.reset, mem := []
    caps := false, lheld := false, rheld := false, restore := false, matrix := 0#64
    work := Work.reset, job := some .initialReset
    pins := Pins.reset, trace := []
    hold := Config.accessesBeforeExecute 0, draws := 1, program := [], reads := [] }

end Sys2Proof.Machine
end

