-- ==== Sys2Proof/Machine/Flags.lean ====
section
/-! DEFINITION. The flag registers as words, W1C, the interrupt output, and the flags that recording an error and
completing a command write (10_state.md R21 to R26, R50; 20_memory.md R65; 60_exceptions.md R250, R253, R256). -/

namespace Sys2Proof.Machine

/-- CTRL as the host reads it (10_state.md R21). -/
def ctrlWord (c : Ctrl) : Word :=
  (0#16 ++ c.modShiftMask ++ 0#4 ++ BitVec.ofBool c.joySkipInit ++ BitVec.ofBool c.joyMarkBit ++ BitVec.ofBool c.joyEn
    ++ BitVec.ofBool c.kbdEn : BitVec 32)

/-- The fields a CTRL write takes from the word (10_state.md R21). -/
def ctrlOfWord (v : Word) : Ctrl :=
  { kbdEn := v.getLsbD 0, joyEn := v.getLsbD 1, joyMarkBit := v.getLsbD 2, joySkipInit := v.getLsbD 3
    modShiftMask := v.extractLsb' 8 8 }

/-- STATUS as the host reads it (10_state.md R22). -/
def statusWord (st : Status) : Word :=
  (0#25 ++ BitVec.ofBool st.invFault ++ BitVec.ofBool st.done ++ BitVec.ofBool st.errOvf ++ BitVec.ofBool st.err
    ++ BitVec.ofBool st.evNew ++ BitVec.ofBool st.frameReady ++ BitVec.ofBool st.busy : BitVec 32)

/-- A STATUS write: a 1 in bit 2, 3, 4 or 5 clears it, all else ignores the write (20_memory.md R65). -/
def statusW1C (st : Status) (v : Word) : Status :=
  { st with
    evNew := st.evNew && !v.getLsbD 2, err := st.err && !v.getLsbD 3
    errOvf := st.errOvf && !v.getLsbD 4, done := st.done && !v.getLsbD 5 }

/-- IRQ_EN as the host reads it (10_state.md R23). -/
def irqEnWord (e : IrqEn) : Word :=
  (0#26 ++ BitVec.ofBool e.doneIe ++ 0#1 ++ BitVec.ofBool e.errIe ++ BitVec.ofBool e.evNewIe ++ 0#2 : BitVec 32)

/-- The fields an IRQ_EN write takes from the word (10_state.md R23). -/
def irqEnOfWord (v : Word) : IrqEn :=
  { evNewIe := v.getLsbD 2, errIe := v.getLsbD 3, doneIe := v.getLsbD 5 }

/-- ERR as the host reads it (10_state.md R24). -/
def errWord (e : ErrReg) : Word := (0#12 ++ e.addr ++ e.op ++ e.code : BitVec 32)

/-- LATCH as the host reads it (10_state.md R37). -/
def latchWord (s : State) : Word :=
  (0#28 ++ BitVec.ofBool s.restore ++ BitVec.ofBool s.rheld ++ BitVec.ofBool s.lheld ++ BitVec.ofBool s.caps : BitVec 32)

/-- irq_o, a level computed continuously (60_exceptions.md R256). -/
def irqOut (s : State) : Bool :=
  (s.status.evNew && s.irqEn.evNewIe) || (s.status.err && s.irqEn.errIe) || (s.status.done && s.irqEn.doneIe)

/-- The errors of 60_exceptions.md R250. -/
inductive ErrorName where
  | malformedFrame
  | checksumMismatch
  | unknownInputKey
  | invariantViolation
  | illegalCmd
  | cmdWhileBusy
  | noFrame
  | writeWhileBusy
  | reservedCode
deriving DecidableEq, Repr

/-- ERR.CODE of an error (60_exceptions.md R250). -/
def errorCode : ErrorName → BitVec 4
  | .malformedFrame => 1#4
  | .checksumMismatch => 2#4
  | .unknownInputKey => 3#4
  | .invariantViolation => 4#4
  | .illegalCmd => 5#4
  | .cmdWhileBusy => 6#4
  | .noFrame => 7#4
  | .writeWhileBusy => 8#4
  | .reservedCode => 9#4

/-- The STATUS bits of RECORD(code) (60_exceptions.md R253): ERR_OVF if ERR was 1, then ERR. -/
def statusRecord (st : Status) : Status := { st with errOvf := st.errOvf || st.err, err := true }

/-- The STATUS bits of the command wrapper's end (44_control.md R241). -/
def statusComplete (st : Status) : Status := { st with busy := false, done := true }

end Sys2Proof.Machine
end

