-- ==== Sys2Proof/Machine/Memory.lean ====
section
/-! DEFINITION. The byte memory that holds PB and XLAT (10_state.md R29, R30, R51). Bits 8j+7:8j of the word at byte
address a are the byte at a+j; no access shows this order (20_memory.md R70; log entry 9, safe). -/

namespace Sys2Proof.Machine

/-- What an unlisted address reads as: the spec's reset contents (10_state.md R51). -/
def unlistedByte : Byte := 0#8

/-- The canonical form: addresses strictly rising, no entry equal to what an unlisted address reads as. -/
def Memory.wf (m : Memory) : Bool :=
  decide (m.Pairwise (fun x y => x.1 < y.1)) && m.all (fun x => x.2 != unlistedByte)

/-- Read of one byte. -/
def Memory.readByte : Memory → Nat → Byte
  | [], _ => unlistedByte
  | (k, v) :: m, a => if k = a then v else Memory.readByte m a

/-- Write of one byte, keeping the canonical form: writing the unlisted value removes the entry. -/
def Memory.writeByte : Memory → Nat → Byte → Memory
  | [], a, b => if b = unlistedByte then [] else [(a, b)]
  | (k, v) :: m, a, b =>
    if a < k then (if b = unlistedByte then (k, v) :: m else (a, b) :: (k, v) :: m)
    else if a = k then (if b = unlistedByte then m else (a, b) :: m)
    else (k, v) :: Memory.writeByte m a b

/-- Read of the 32-bit word whose lowest byte address is a. -/
def Memory.readWord (m : Memory) (a : Nat) : Word :=
  (m.readByte (a + 3) ++ m.readByte (a + 2) ++ m.readByte (a + 1) ++ m.readByte a : BitVec 32)

/-- Write of the 32-bit word whose lowest byte address is a. -/
def Memory.writeWord (m : Memory) (a : Nat) (v : Word) : Memory :=
  (((m.writeByte a (v.extractLsb' 0 8)).writeByte (a + 1) (v.extractLsb' 8 8)).writeByte (a + 2)
    (v.extractLsb' 16 8)).writeByte (a + 3) (v.extractLsb' 24 8)

/-- The byte address of PB[i] (10_state.md R29). -/
def pbAddr (i : Nat) : Nat := 0x100 + 4 * i

/-- The byte address of XLAT[i] (10_state.md R30). -/
def xlatAddr (i : Nat) : Nat := 0x400 + 4 * i

/-- The bits of a PB word that exist: DUR (10_state.md R29). -/
def pbMask : Word := 0x0000FFFF#32

/-- The bits of an XLAT word that exist: VALID, FLAGS, OUT, IN (10_state.md R30). -/
def xlatMask : Word := 0x80FFFFFF#32

/-- PB[i], a 16-bit duration (00_scope.md R9). -/
def pbEntry (m : Memory) (i : Nat) : Dur := (m.readWord (pbAddr i)).extractLsb' 0 16

/-- XLAT[i] (00_scope.md R9). -/
def xlatEntry (m : Memory) (i : Nat) : Word := m.readWord (xlatAddr i) &&& xlatMask

end Sys2Proof.Machine
end

