-- ==== Sys2Proof/Machine/Operands.lean ====
section
/-! DEFINITION. The operand forms: the fields of a timing window, a translation entry, a keyboard payload, the joystick
data, an event, and the words of the result registers (10_state.md, 30_encoding.md Part B, 41_frame_validate.md). -/

namespace Sys2Proof.Machine

/-! ### Timing windows -/

/-- NOM, bits 15:0 of a window register (10_state.md R27). -/
def winNom (w : Word) : BitVec 16 := w.extractLsb' 0 16

/-- TOL, bits 31:16 of a window register (10_state.md R27). -/
def winTol (w : Word) : BitVec 16 := w.extractLsb' 16 16

/-- match(d, W) of 40_frame_decode.md R130: exact integers, no wrap, inclusive at both ends. -/
def inWindow (d : Dur) (w : Word) : Bool :=
  decide ((winNom w).toNat ≤ d.toNat + (winTol w).toNat) && decide (d.toNat ≤ (winNom w).toNat + (winTol w).toNat)

/-- band(d): the least j whose window T_KSj matches (40_frame_decode.md R142, 30_encoding.md R111). -/
def band (t : Timing) (d : Dur) : Option (BitVec 2) :=
  if inWindow d t.ks0 then some 0#2
  else if inWindow d t.ks1 then some 1#2
  else if inWindow d t.ks2 then some 2#2
  else if inWindow d t.ks3 then some 3#2
  else none

/-! ### Translation entries -/

/-- VALID of an entry (10_state.md R30). -/
def entryValid (e : Word) : Bool := e.getLsbD 31
/-- IN of an entry (10_state.md R30). -/
def entryIn (e : Word) : Byte := e.extractLsb' 0 8
/-- OUT of an entry (10_state.md R30). -/
def entryOut (e : Word) : Byte := e.extractLsb' 8 8
/-- FLAGS of an entry (10_state.md R30, 30_encoding.md R117). -/
def entryFlags (e : Word) : Byte := e.extractLsb' 16 8
/-- autoShiftRequested = FLAGS[2], OUT_SHIFT (42_dispatch.md R194). -/
def entryAutoShift (e : Word) : Bool := (entryFlags e).getLsbD 2

/-- applies(e, c, s) of 42_dispatch.md R190. -/
def entryApplies (e : Word) (c : Byte) (sh : Bool) : Bool :=
  entryValid e && entryIn e == c &&
  (!(entryFlags e).getLsbD 0 || !sh) && (!(entryFlags e).getLsbD 1 || sh)

/-! ### Keyboard payload (30_encoding.md R112 to R114) and joystick data (R115) -/

def payloadChk (p : Word) : BitVec 4 := p.extractLsb' Config.chkLo 4
def payloadHdr (p : Word) : Byte := p.extractLsb' Config.hdrLo 8
def payloadMod (p : Word) : Byte := p.extractLsb' Config.modLo 8
def payloadCode (p : Word) : Byte := p.extractLsb' Config.codeLo 8
def payloadX6 (p : Word) : BitVec 6 := p.extractLsb' Config.x6Lo 6
def payloadY6 (p : Word) : BitVec 6 := p.extractLsb' Config.y6Lo 6

/-- Header bit 0x80, released (30_encoding.md R113). -/
def hdrReleased (h : Byte) : Bool := h.getLsbD 7
/-- Header bit 0x40, repeated (30_encoding.md R113). -/
def hdrRepeated (h : Byte) : Bool := h.getLsbD 6
/-- Header bit 0x02, 1 = Key (30_encoding.md R113). -/
def hdrIsKey (h : Byte) : Bool := h.getLsbD 1

/-- popcount(v), the number of 1 bits (00_scope.md R8). -/
def popcount (v : Word) : Nat := (List.range 32).countP (fun i => v.getLsbD i)

/-- expected(p) of 41_frame_validate.md R170, an exact integer. -/
def expectedChk (p : Word) : Nat := 2 + popcount (p &&& 0x00FFFFFF#32)

/-- valid(p) of 41_frame_validate.md R170. -/
def payloadValid (p : Word) : Bool := expectedChk p == (payloadChk p).toNat

/-- widen6(v) of 41_frame_validate.md R174, as its 8-bit two's-complement pattern. -/
def widen6 (v : BitVec 6) : Byte := v.setWidth 8 <<< 2

/-! ### Events (41_frame_validate.md R172 to R180) -/

/-- EV0.KIND (10_state.md R33). -/
inductive Kind where
  | invalid
  | key
  | joy
  | joykb
deriving DecidableEq, Repr

/-- The code of a kind in EV0[1:0] (10_state.md R33). -/
def kindCode : Kind → BitVec 2
  | .invalid => 0#2
  | .key => 1#2
  | .joy => 2#2
  | .joykb => 3#2

/-- The event record of 41_frame_validate.md. `hi` is MOD or Y, `lo` is CODE or X (R180). -/
structure Event where
  kind : Kind
  hdr : Byte
  rel : Bool
  rep : Bool
  b1 : Bool
  b2 : Bool
  hi : Byte
  lo : Byte
  raw : Word
deriving DecidableEq, Repr

/-- KEY_EVENT(p) (41_frame_validate.md R172). -/
def keyEvent (p : Word) : Event :=
  { kind := .key, hdr := payloadHdr p
    rel := hdrReleased (payloadHdr p), rep := hdrRepeated (payloadHdr p), b1 := false, b2 := false
    hi := payloadMod p, lo := payloadCode p, raw := p }

/-- JOYKB_EVENT(p) (41_frame_validate.md R175), with the all-zero remap of R176. -/
def joykbEvent (p : Word) : Event :=
  { kind := .joykb, hdr := payloadHdr p, rel := false, rep := false, b1 := false, b2 := false
    hi := widen6 (payloadY6 p), lo := widen6 (payloadX6 p)
    raw := if p.extractLsb' 0 24 = 0#24 then Config.joykbSentinel else p }

/-- JOY_EVENT(d) (41_frame_validate.md R177). -/
def joyEvent (d : BitVec 16) : Event :=
  { kind := .joy, hdr := 0#8, rel := false, rep := false, b1 := d.getLsbD 7, b2 := d.getLsbD 15
    hi := (d.extractLsb' 8 7).setWidth 8, lo := (d.extractLsb' 0 7).setWidth 8, raw := d.setWidth 32 }

/-- The EV0 word of an event (41_frame_validate.md R180). -/
def ev0Word (e : Event) : Word :=
  (0#8 ++ e.hdr ++ 0#4 ++ BitVec.ofBool e.b2 ++ BitVec.ofBool e.b1 ++ BitVec.ofBool e.rep ++ BitVec.ofBool e.rel
    ++ 0#6 ++ kindCode e.kind : BitVec 32)

/-- The EV1 word of an event (41_frame_validate.md R180). -/
def ev1Word (e : Event) : Word := (0#16 ++ e.hi ++ e.lo : BitVec 32)

/-- EV0.KIND of the register word. -/
def ev0Kind (w : Word) : BitVec 2 := w.extractLsb' 0 2
/-- EV0.REL of the register word. -/
def ev0Rel (w : Word) : Bool := w.getLsbD 8
/-- EV1[7:0], CODE of a KEY event. -/
def ev1Code (w : Word) : Byte := w.extractLsb' 0 8
/-- EV1[15:8], MOD of a KEY event. -/
def ev1Mod (w : Word) : Byte := w.extractLsb' 8 8

/-! ### LOOKUP_RES (42_dispatch.md R192) -/

/-- The LOOKUP_RES word of WRITE_LOOKUP_RES(r, s): {HIT, 5'b0, AUTOSHIFT, SHIFT_IN, IDX, FLAGS, OUT}. -/
def lookupWord (r : Option (Nat × Word)) (sh : Bool) : Word :=
  match r with
  | some (i, e) =>
    (1#1 ++ 0#5 ++ BitVec.ofBool (entryAutoShift e) ++ BitVec.ofBool sh ++ BitVec.ofNat 8 i ++ entryFlags e ++ entryOut e
      : BitVec 32)
  | none => (0#1 ++ 0#5 ++ 0#1 ++ BitVec.ofBool sh ++ 0#8 ++ 0#8 ++ 0#8 : BitVec 32)

/-! ### Decoder outcomes and DIAG -/

/-- Why a decoder rejects (10_state.md R32). -/
inductive Reason where
  | short
  | hdrMark
  | hdrSpace
  | bitMark
  | band
  | exhausted
  | classMiss
deriving DecidableEq, Repr

/-- The result code of a rejection in DIAG (10_state.md R32). -/
def reasonCode : Reason → BitVec 4
  | .short => 2#4
  | .hdrMark => 3#4
  | .hdrSpace => 4#4
  | .bitMark => 5#4
  | .band => 6#4
  | .exhausted => 7#4
  | .classMiss => 8#4

/-- What became of a decoder in one DECODE (40_frame_decode.md R132, R155). -/
inductive Attempt (α : Type) where
  | notTried
  | ok (value : α) (consumed : Nat)
  | reject (reason : Reason) (idx : Nat)
deriving DecidableEq, Repr

/-- The result code of DIAG: 0 NOT_TRIED, 1 OK, or the reason's (10_state.md R32, 40_frame_decode.md R156). -/
def attemptCode {α : Type} : Attempt α → BitVec 4
  | .notTried => 0#4
  | .ok _ _ => 1#4
  | .reject r _ => reasonCode r

/-- The index of DIAG (10_state.md R32, 40_frame_decode.md R156). -/
def attemptIndex {α : Type} : Attempt α → Nat
  | .notTried => 0
  | .ok _ c => c
  | .reject _ i => i

/-- The DIAG word: KRES 3:0, JRES 7:4, KIDX 15:8, JIDX 23:16 (10_state.md R32). -/
def diagWord (kr : Attempt Word) (jr : Attempt (BitVec 16)) : Word :=
  (0#8 ++ BitVec.ofNat 8 (attemptIndex jr) ++ BitVec.ofNat 8 (attemptIndex kr) ++ attemptCode jr ++ attemptCode kr
    : BitVec 32)

end Sys2Proof.Machine
end

