-- ==== Sys2Proof/Machine/Pins.lean ====
section
/-! DEFINITION. What a pin event does on the pins (43_matrix.md R210 to R212, 40_frame_decode.md R160). An event is a
sequence of pin levels in the spec's order; the minimum number of clocks of each level is carried as data, and no rule
depends on it (70_reset_and_hazards.md R299; log entry 11). -/

namespace Sys2Proof.Machine

/-- One stretch of constant pin levels, and how many clocks it lasts at least. -/
structure Phase where
  levels : Pins
  minClocks : Nat
deriving DecidableEq, Repr

/-- The successive pin levels of an event: selects, then data, then strobe high, then strobe low and hold (R210); the
array's reset pulse (R211); the restore line (R212); the one-clock rearm pulse (10_state.md R47). -/
def waveform (prm : Params) (p : Pins) : PinEvent → List Phase
  | .xwrite c v =>
    let sel : Pins := { p with rowSel := c.extractLsb' 3 3, colSel := c.extractLsb' 0 3 }
    let dat : Pins := { sel with data := v }
    [⟨sel, 0⟩, ⟨dat, prm.tSu⟩, ⟨{ dat with strobe := true }, prm.tStb⟩, ⟨{ dat with strobe := false }, prm.tHd⟩]
  | .xreset => [⟨{ p with xrst := true, strobe := false }, prm.tRst⟩, ⟨{ p with xrst := false, strobe := false }, 0⟩]
  | .restore .low => [⟨{ p with restoreOe := true }, 0⟩]
  | .restore .released => [⟨{ p with restoreOe := false }, 0⟩]
  | .rearm => [⟨{ p with rearm := true }, 1⟩, ⟨{ p with rearm := false }, 0⟩]

/-- The levels the pins keep after an event: those of its last phase (43_matrix.md R210). -/
def settle (prm : Params) (p : Pins) (e : PinEvent) : Pins :=
  match (waveform prm p e).getLast? with
  | some ph => ph.levels
  | none => p

/-- The pin levels of a whole trace, event after event: no event falls inside another (20_memory.md R73d). -/
def waveforms (prm : Params) : Pins → List PinEvent → List Phase
  | _, [] => []
  | p, e :: es => waveform prm p e ++ waveforms prm (settle prm p e) es

end Sys2Proof.Machine
end

