-- ==== Sys2Proof/Machine/Ops.lean ====
section
/-! DEFINITION. The operations the commands share: recording an error, emitting a pin event, writing a crosspoint, the
initial-state procedure, the result registers, and the command wrapper. -/

namespace Sys2Proof.Machine

/-! ### Errors (60_exceptions.md R253): the one shared operation of taking an exception. The block has no trap entry and no
return from one (R259, R260): the host acknowledges by writing STATUS (`statusW1C`). -/

/-- RECORD(code) with the OP and ADDR of ERR (60_exceptions.md R253). -/
def recordError (n : ErrorName) (op : BitVec 4) (addr : BusAddr) (s : State) : State :=
  { s with status := statusRecord s.status, err := { code := errorCode n, op := op, addr := addr } }

/-- raise Error(code) inside a command: ERR.OP is the command word's OP and ERR.ADDR is 0 (60_exceptions.md R253). -/
def raise (n : ErrorName) (op : BitVec 4) (s : State) : State := recordError n op 0#12 s

/-! ### Pins and crosspoints -/

/-- emit: append to the pin trace and drive the pins (00_scope.md R10, 43_matrix.md R210 to R212). -/
def emit (e : PinEvent) (s : State) : State :=
  { s with trace := s.trace ++ [e], pins := settle s.params s.pins e }

/-- The matrix with crosspoint c set to v. -/
def setCross (m : BitVec 64) (c : Coord) (v : Bool) : BitVec 64 :=
  if v then m ||| (1#64 <<< c.toNat) else m &&& ~~~(1#64 <<< c.toNat)

/-- M[c] (00_scope.md R9). -/
def crossAt (m : BitVec 64) (c : Coord) : Bool := m.getLsbD c.toNat

/-- XWRITE(c, v) (43_matrix.md R210). -/
def xwrite (c : Coord) (v : Bool) (s : State) : State :=
  emit (.xwrite c v) { s with matrix := setCross s.matrix c v }

/-- `for c in 0 .. 63: XWRITE(c, 0)`, ascending (43_matrix.md R219). -/
def clearCrosspoints (s : State) : State :=
  (List.range 64).foldl (fun t c => xwrite (BitVec.ofNat 6 c) false t) s

/-- INIT_STATE() (43_matrix.md R219). -/
def initState (s : State) : State :=
  emit (.restore .released)
    { clearCrosspoints (emit .xreset s) with caps := false, lheld := false, rheld := false, restore := false }

/-- INV_CHECK() (43_matrix.md R227); op is the command's OP. -/
def invCheck (op : BitVec 4) (s : State) : State :=
  if crossAt s.matrix s.params.lshiftCoord = (s.lheld || s.caps) then s
  else raise .invariantViolation op { s with status := { s.status with invFault := true } }

/-! ### Result registers -/

/-- The event registers written together (41_frame_validate.md R180). -/
def writeEvent (e0 e1 raw : Word) (s : State) : State := { s with ev0 := e0, ev1 := e1, evRaw := raw }

/-- DIAG written whole (40_frame_decode.md R156). -/
def writeDiag (w : Word) (s : State) : State := { s with diag := w }

/-- LOOKUP_RES written whole (42_dispatch.md R192). -/
def writeLookupRes (w : Word) (s : State) : State := { s with lookupRes := w }

/-- The decoders' working registers after a decoder has run (10_state.md R45). -/
def setWork (w : Work) (s : State) : State := { s with work := w }

/-- STATUS.FRAME_READY <- 0 and emit Rearm: the frame is given up (40_frame_decode.md R157, R160). -/
def dropFrame (s : State) : State :=
  emit .rearm { s with status := { s.status with frameReady := false } }

/-- STATUS.EV_NEW <- 1 (40_frame_decode.md R157). -/
def markEvent (s : State) : State := { s with status := { s.status with evNew := true } }

/-! ### The command wrapper (44_control.md R241) -/

/-- How many host accesses land before the engine's next step is drawn: one draw for each job the engine is given
(44_control.md R241, I21; log entry 4, DESIGN CHOICE: a free value). The count advances whatever is drawn, 0 included. -/
def drawSchedule (s : State) : State :=
  { s with hold := Config.accessesBeforeExecute s.draws, draws := s.draws + 1 }

/-- ACCEPT(v) with BUSY = 0: BUSY <- 1, pending <- v; when EXECUTE follows is drawn. -/
def acceptCommand (v : Word) (s : State) : State :=
  drawSchedule { s with status := { s.status with busy := true }, job := some (.command v) }

/-- The end of EXECUTE: BUSY <- 0 and DONE <- 1, also after an error. The engine holds no command any more. -/
def completeCommand (s : State) : State :=
  { s with status := statusComplete s.status, job := none, hold := 0 }

end Sys2Proof.Machine
end

