-- ==== Sys2Proof/Machine/Control.lean ====
section
/-! DEFINITION. NOP and the illegal words (44_control.md R242, R243). -/

namespace Sys2Proof.Machine

/-- NOP: the wrapper alone (44_control.md R242). -/
def execNop (s : State) : Host.Outcome State Fault Refusal := .next (completeCommand s)

/-- An illegal word: ILLEGAL_CMD with ERR.OP = v[3:0], then the wrapper (44_control.md R243). -/
def illegalCommand (v : Word) (s : State) : State := completeCommand (raise .illegalCmd (opField v) s)

end Sys2Proof.Machine
end

