-- ==== Sys2Proof/Machine/Bus.lean ====
section
/-! DEFINITION. The host bus: the register map, MemRead and MemWrite, and the BUSY rules (20_memory.md R60 to R69,
60_exceptions.md R258); the host's events, power-on reset among them. -/

namespace Sys2Proof.Machine

/-- The name of a timing window register (10_state.md R28). -/
inductive Win where
  | khm | khs | kbm | ks0 | ks1 | ks2 | ks3 | jhm | js | jl
deriving DecidableEq, Repr

/-- A window register's value. -/
def winGet (t : Timing) : Win → Word
  | .khm => t.khm
  | .khs => t.khs
  | .kbm => t.kbm
  | .ks0 => t.ks0
  | .ks1 => t.ks1
  | .ks2 => t.ks2
  | .ks3 => t.ks3
  | .jhm => t.jhm
  | .js => t.js
  | .jl => t.jl

/-- A window register written; both fields take any value (10_state.md R27). -/
def winSet (t : Timing) (v : Word) : Win → Timing
  | .khm => { t with khm := v }
  | .khs => { t with khs := v }
  | .kbm => { t with kbm := v }
  | .ks0 => { t with ks0 := v }
  | .ks1 => { t with ks1 := v }
  | .ks2 => { t with ks2 := v }
  | .ks3 => { t with ks3 := v }
  | .jhm => { t with jhm := v }
  | .js => { t with js := v }
  | .jl => { t with jl := v }

/-- What an address of the register map names (20_memory.md R61). -/
inductive Reg where
  | id
  | ctrl
  | status
  | irqEn
  | err
  | cmd
  | pbCount
  | diag
  | ev0
  | ev1
  | evRaw
  | lookupRes
  | latch
  | matrixLo
  | matrixHi
  | window (w : Win)
  | pb (i : Nat)
  | xlat (i : Nat)
  /-- An address the map does not list: RAZ/WI (R62). -/
  | unmapped
deriving DecidableEq, Repr

/-- Registers at the word indices addr[11:2] of 0x000 to 0x064 (20_memory.md R61). -/
def controlReg : Nat → Reg
  | 0 => .id
  | 1 => .ctrl
  | 2 => .status
  | 3 => .irqEn
  | 4 => .err
  | 5 => .cmd
  | 6 => .pbCount
  | 7 => .diag
  | 8 => .ev0
  | 9 => .ev1
  | 10 => .evRaw
  | 11 => .lookupRes
  | 12 => .latch
  | 13 => .matrixLo
  | 14 => .matrixHi
  | 16 => .window .khm
  | 17 => .window .khs
  | 18 => .window .kbm
  | 19 => .window .ks0
  | 20 => .window .ks1
  | 21 => .window .ks2
  | 22 => .window .ks3
  | 23 => .window .jhm
  | 24 => .window .js
  | 25 => .window .jl
  | _ => .unmapped

/-- The register at addr[11:2]; bits 1:0 are ignored (20_memory.md R61, R63, R64). -/
def regAt (prm : Params) (addr : BusAddr) : Reg :=
  let w := (addr.extractLsb' 2 10).toNat
  if w < 64 then controlReg w
  else if w < 128 then (if w - 64 < prm.pbDepth then .pb (w - 64) else .unmapped)
  else if w < 256 then .unmapped
  else if w < 512 then (if w - 256 < prm.xlatDepth then .xlat (w - 256) else .unmapped)
  else .unmapped

/-- The value of a register as 10_state.md defines it (20_memory.md R63). CMD and unmapped addresses read 0 (R25, R62). -/
def readReg (s : State) : Reg → Word
  | .id => Config.idWord
  | .ctrl => ctrlWord s.ctrl
  | .status => statusWord s.status
  | .irqEn => irqEnWord s.irqEn
  | .err => errWord s.err
  | .cmd => 0#32
  | .pbCount => s.pbCount.setWidth 32
  | .diag => s.diag
  | .ev0 => s.ev0
  | .ev1 => s.ev1
  | .evRaw => s.evRaw
  | .lookupRes => s.lookupRes
  | .latch => latchWord s
  | .matrixLo => s.matrix.extractLsb' 0 32
  | .matrixHi => s.matrix.extractLsb' 32 32
  | .window w => winGet s.timing w
  | .pb i => (pbEntry s.mem i).setWidth 32
  | .xlat i => xlatEntry s.mem i
  | .unmapped => 0#32

/-- The registers whose read returns any value while BUSY = 1 (20_memory.md R68). -/
def freeWhileBusy : Reg → Bool
  | .err | .diag | .ev0 | .ev1 | .evRaw | .lookupRes | .latch | .matrixLo | .matrixHi => true
  | .id | .ctrl | .status | .irqEn | .cmd | .pbCount | .window _ | .pb _ | .xlat _ | .unmapped => false

/-- The registers whose write is dropped with WRITE_WHILE_BUSY while BUSY = 1 (20_memory.md R69, 60_exceptions.md R258). -/
def guardedWhileBusy : Reg → Bool
  | .ctrl | .window _ | .pbCount | .pb _ | .xlat _ => true
  | .id | .status | .irqEn | .err | .cmd | .diag | .ev0 | .ev1 | .evRaw | .lookupRes | .latch | .matrixLo | .matrixHi
  | .unmapped => false

/-- MemRead(addr, 4): the value is appended to what the host has read (20_memory.md R63, R68). A free value is drawn for
a result register while BUSY = 1 (log entry 3). -/
def memRead (addr : BusAddr) (s : State) : State :=
  let r := regAt s.params addr
  if s.status.busy && freeWhileBusy r then
    { s with reads := s.reads ++ [Config.busyRead s.draws], draws := s.draws + 1 }
  else { s with reads := s.reads ++ [readReg s r] }

/-- The effect of an accepted write (20_memory.md R64, R65, R66); RO and unmapped registers are unchanged. -/
def writeReg (s : State) (v : Word) : Reg → State
  | .ctrl => { s with ctrl := ctrlOfWord v }
  | .status => { s with status := statusW1C s.status v }
  | .irqEn => { s with irqEn := irqEnOfWord v }
  | .pbCount => { s with pbCount := v.extractLsb' 0 8, status := { s.status with frameReady := true } }
  | .window w => { s with timing := winSet s.timing v w }
  | .pb i => { s with mem := s.mem.writeWord (pbAddr i) (v &&& pbMask) }
  | .xlat i => { s with mem := s.mem.writeWord (xlatAddr i) (v &&& xlatMask) }
  | .cmd => acceptCommand v s
  | .id | .err | .diag | .ev0 | .ev1 | .evRaw | .lookupRes | .latch | .matrixLo | .matrixHi | .unmapped => s

/-- {a[11:2], 2'b00}, the byte address ERR.ADDR keeps (60_exceptions.md R253). -/
def wordAddr (addr : BusAddr) : BusAddr := (addr.extractLsb' 2 10 ++ 0#2 : BitVec 12)

/-- MemWrite(addr, 4, v) (20_memory.md R64 to R69): while BUSY = 1 a CMD word is dropped with CMD_WHILE_BUSY and a guarded
write with WRITE_WHILE_BUSY (60_exceptions.md R258). -/
def memWrite (addr : BusAddr) (v : Word) (s : State) : State :=
  let r := regAt s.params addr
  if s.status.busy then
    if r = .cmd then recordError .cmdWhileBusy (opField v) 0#12 s
    else if guardedWhileBusy r then recordError .writeWhileBusy 0xF#4 (wordAddr addr) s
    else writeReg s v r
  else writeReg s v r

/-- Power-on reset as one event between engine steps (70_reset_and_hazards.md R281, R284): every piece of the block's state
takes its reset value. The build parameters, and what stands outside the block (the host's program and what it has read,
the trace of what was emitted), stay, and the draw counter goes on: the initial MRESET has a draw of its own
(log entries 4 and 10). -/
def powerOnReset (s : State) : State :=
  drawSchedule
    { State.reset with
      params := s.params, trace := s.trace, draws := s.draws, program := s.program, reads := s.reads }

/-- One host event takes effect (20_memory.md R73a). WAIT is issued again while BUSY reads 1 (30_encoding.md R101). -/
def hostEvent (e : HostEvent) (s : State) : State :=
  match e with
  | .read addr => memRead addr s
  | .write addr v => memWrite addr v s
  | .wait => if s.status.busy then { s with program := .wait :: s.program } else s
  | .powerOnReset => powerOnReset s

end Sys2Proof.Machine
end

