-- ==== Sys2Proof/Machine/FrameDecode.lean ====
section
/-! DEFINITION. The keyboard and joystick decoders, the protocol discriminator and the frame validator
(40_frame_decode.md R130 to R156, 41_frame_validate.md R170 to R180). -/

namespace Sys2Proof.Machine

/-- The frame a decoder may read: PB[0..n-1] with n = min(COUNT, PB_DEPTH) (40_frame_decode.md R131). -/
def frame (s : State) : List Dur :=
  (List.range (min s.pbCount.toNat s.params.pbDepth)).map (pbEntry s.mem)

/-! ### Keyboard decoder -/

/-- One accumulation step: ACC <- (ACC >> 2) | (zext_32(g) << 30) (40_frame_decode.md R143). -/
def accumulate (acc : Word) (g : BitVec 2) : Word := acc >>> 2 ||| g.setWidth 32 <<< 30

/-- The last `k` of the 14 (mark, space) pairs; `ds` are the pulses from IDX on (40_frame_decode.md R142, R143). -/
def kbdPairs (t : Timing) : Nat → List Dur → Work → Attempt Word × Work
  | 0, _, w => (.ok (w.acc >>> 4) 30, w)
  | _ + 1, [], w => (.reject .exhausted w.idx, w)
  | k + 1, mark :: ds, w =>
    if inWindow mark t.kbm then
      let w1 := { w with idx := w.idx + 1 }
      match ds with
      | [] => (.reject .exhausted w1.idx, w1)
      | space :: rest =>
        match band t space with
        | none => (.reject .band w1.idx, w1)
        | some g => kbdPairs t k rest
            { w1 with acc := accumulate w1.acc g, idx := if k = 0 then w1.idx else w1.idx + 1 }
    else (.reject .bitMark w.idx, w)

/-- KBD(n) (40_frame_decode.md R140 to R143), with the working registers before and after. -/
def kbd (t : Timing) (fr : List Dur) (w : Work) : Attempt Word × Work :=
  if fr.length < 17 then (.reject .short 0, w)
  else
    match fr with
    | hm :: hs :: ds =>
      if inWindow hm t.khm then
        if inWindow hs t.khs then kbdPairs t 14 ds { w with acc := 0#32, idx := 2 }
        else (.reject .hdrSpace 1, w)
      else (.reject .hdrMark 0, w)
    | _ => (.reject .short 0, w)

/-! ### Joystick decoder -/

/-- The bit a pulse at index i emits: an even index is a mark (40_frame_decode.md R151). -/
def pulseBit (c : Ctrl) (i : Nat) : Bool := if i % 2 = 0 then c.joyMarkBit else !c.joyMarkBit

/-- DATA <- ((DATA << 1) | b)[15:0]; BITS <- BITS + 1; SKIP <- 1 (40_frame_decode.md R151). -/
def emitBit (b : Bool) (w : Work) : Work :=
  { w with data := w.data <<< 1 ||| (BitVec.ofBool b).setWidth 16, bits := w.bits + 1, skip := true }

/-- The bit loop; `ds` are the pulses from IDX on (40_frame_decode.md R151). -/
def joyBits (t : Timing) (c : Ctrl) : List Dur → Work → Attempt (BitVec 16) × Work
  | [], w => if w.bits < 16 then (.reject .exhausted w.idx, w) else (.ok w.data w.idx, w)
  | d :: ds, w =>
    if w.bits < 16 then
      if inWindow d t.js then
        if w.skip then joyBits t c ds { w with skip := false, idx := w.idx + 1 }
        else joyBits t c ds { emitBit (pulseBit c w.idx) w with idx := w.idx + 1 }
      else if inWindow d t.jl then joyBits t c ds { emitBit (pulseBit c w.idx) w with idx := w.idx + 1 }
      else (.reject .classMiss w.idx, w)
    else (.ok w.data w.idx, w)

/-- JOY(n) (40_frame_decode.md R150, R151), with the working registers before and after. -/
def joy (t : Timing) (c : Ctrl) (fr : List Dur) (w : Work) : Attempt (BitVec 16) × Work :=
  if fr.length < 17 then (.reject .short 0, w)
  else
    match fr with
    | hm :: ds =>
      if inWindow hm t.jhm then
        joyBits t c ds { w with skip := c.joySkipInit, data := 0#16, bits := 0, idx := 1 }
      else (.reject .hdrMark 0, w)
    | [] => (.reject .short 0, w)

/-! ### Validator and discriminator -/

/-- What a DECODE found (40_frame_decode.md R157). -/
inductive FrameResult where
  | malformed
  | chkFail (p : Word)
  | event (e : Event)
deriving DecidableEq, Repr

/-- VALIDATE_KBD(p) (41_frame_validate.md R171). -/
def validateKbd (p : Word) : FrameResult :=
  if payloadValid p then
    if hdrIsKey (payloadHdr p) then .event (keyEvent p) else .event (joykbEvent p)
  else .chkFail p

/-- What the mode-specific step of a DECODE yields: both decoders' outcomes, the result, the working registers. -/
structure Selected where
  kr : Attempt Word
  jr : Attempt (BitVec 16)
  res : FrameResult
  work : Work
deriving DecidableEq, Repr

/-- SELECT_J(n), with the keyboard outcome so far (40_frame_decode.md R155, R159). -/
def selectJoy (s : State) (kr : Attempt Word) (w : Work) : Selected :=
  let r := joy s.timing s.ctrl (frame s) w
  match r.1 with
  | .ok d _ => ⟨kr, r.1, .event (joyEvent d), r.2⟩
  | _ => ⟨kr, r.1, .malformed, r.2⟩

/-- SELECT_K(n) (40_frame_decode.md R158). -/
def selectKbd (s : State) (w : Work) : Selected :=
  let r := kbd s.timing (frame s) w
  match r.1 with
  | .ok p _ => ⟨r.1, .notTried, validateKbd p, r.2⟩
  | _ => ⟨r.1, .notTried, .malformed, r.2⟩

/-- The second half of DISCRIMINATE(n): the joystick decoder, when it is enabled (40_frame_decode.md R155). -/
def discriminateJoy (s : State) (kr : Attempt Word) (w : Work) : Selected :=
  if s.ctrl.joyEn then selectJoy s kr w else ⟨kr, .notTried, .malformed, w⟩

/-- DISCRIMINATE(n) (40_frame_decode.md R155). -/
def discriminate (s : State) (w : Work) : Selected :=
  if s.ctrl.kbdEn then
    match (kbd s.timing (frame s) w).1 with
    | .ok _ _ => selectKbd s w
    | kr => discriminateJoy s kr (kbd s.timing (frame s) w).2
  else discriminateJoy s .notTried w

end Sys2Proof.Machine
end

