-- ==== Sys2Proof/Machine/Matrix.lean ====
section
/-! DEFINITION. The matrix switch controller: APPLY_BODY and its cases, APPLY, MRESET (43_matrix.md R214 to R227). -/

namespace Sys2Proof.Machine

/-- Caps toggle (43_matrix.md R214); with the new caps. -/
def applyCaps (p : Bool) (s : State) : State :=
  if p then xwrite s.params.lshiftCoord (s.lheld || !s.caps) { s with caps := !s.caps } else s

/-- Restore line (43_matrix.md R215). -/
def applyRestore (p : Bool) (s : State) : State :=
  if p then emit (.restore .low) { s with restore := true }
  else emit (.restore .released) { s with restore := false }

/-- Left shift (43_matrix.md R216). -/
def applyLeftShift (p : Bool) (s : State) : State :=
  xwrite s.params.lshiftCoord (p || s.caps) { s with lheld := p }

/-- Right shift (43_matrix.md R217). -/
def applyRightShift (p : Bool) (s : State) : State :=
  xwrite s.params.rshiftCoord p { s with rheld := p }

/-- The forced right shift of an auto-shifted key: the pressed value on press, rheld on release (43_matrix.md R218). -/
def autoShift (p a : Bool) (s : State) : State :=
  if a then xwrite s.params.rshiftCoord (if p then true else s.rheld) s else s

/-- Any other coordinate (43_matrix.md R218). -/
def applyKey (c : Coord) (p a : Bool) (s : State) : State := xwrite c p (autoShift p a s)

/-- Reset code (43_matrix.md R220). -/
def applyReset (p : Bool) (s : State) : State := if p then initState s else s

/-- APPLY_BODY(c, p, a) (43_matrix.md R222); op is the OP of the command that runs it. -/
def applyBody (op : BitVec 4) (c : Byte) (p a : Bool) (s : State) : State :=
  if c = s.params.codeCaps then invCheck op (applyCaps p s)
  else if c = s.params.codeRestore then invCheck op (applyRestore p s)
  else if c = s.params.codeReset then invCheck op (applyReset p s)
  else if 0x40 ≤ c.toNat then raise .reservedCode op s
  else if c = s.params.lshiftCoord.setWidth 8 then invCheck op (applyLeftShift p s)
  else if c = s.params.rshiftCoord.setWidth 8 then invCheck op (applyRightShift p s)
  else invCheck op (applyKey (c.extractLsb' 0 6) p a s)

/-- APPLY code, p, a (43_matrix.md R222). -/
def execApply (code : Byte) (p a : Bool) (s : State) : Host.Outcome State Fault Refusal :=
  .next (completeCommand (applyBody 3#4 code p a s))

/-- MRESET (43_matrix.md R223). -/
def execMreset (s : State) : Host.Outcome State Fault Refusal :=
  .next (completeCommand (invCheck 4#4 (initState s)))

end Sys2Proof.Machine
end

