-- ==== Sys2Proof/Machine/Lookup.lean ====
section
/-! DEFINITION. Translation lookup and key-event dispatch: LOOKUP, DISPATCH (42_dispatch.md R190 to R195). -/

namespace Sys2Proof.Machine

/-- LOOKUP_CORE(c, s): the first applicable entry, ascending (42_dispatch.md R192). -/
def lookupCore (c : Byte) (sh : Bool) (s : State) : Option (Nat × Word) :=
  ((List.range s.params.xlatDepth).map (fun i => (i, xlatEntry s.mem i))).find? (fun ie => entryApplies ie.2 c sh)

/-- inputShift = ((MOD & CTRL.MOD_SHIFT_MASK) != 0) (42_dispatch.md R191). -/
def inputShift (s : State) : Bool := ev1Mod s.ev1 &&& s.ctrl.modShiftMask != 0#8

/-- DISPATCH_BODY() (42_dispatch.md R193); op is the OP of the command that runs it. -/
def dispatchBody (op : BitVec 4) (s : State) : State :=
  if ev0Kind s.ev0 = kindCode .key then
    match lookupCore (ev1Code s.ev1) (inputShift s) s with
    | some ie =>
      applyBody op (entryOut ie.2) (!ev0Rel s.ev0) (entryAutoShift ie.2)
        (writeLookupRes (lookupWord (some ie) (inputShift s)) s)
    | none => raise .unknownInputKey op (writeLookupRes (lookupWord none (inputShift s)) s)
  else s

/-- LOOKUP code, s (42_dispatch.md R192). -/
def execLookup (code : Byte) (sh : Bool) (s : State) : Host.Outcome State Fault Refusal :=
  .next (completeCommand (writeLookupRes (lookupWord (lookupCore code sh s) sh) s))

/-- DISPATCH (42_dispatch.md R193). -/
def execDispatch (s : State) : Host.Outcome State Fault Refusal :=
  .next (completeCommand (dispatchBody 2#4 s))

end Sys2Proof.Machine
end

