-- ==== Sys2Proof/Machine/DecodeCommands.lean ====
section
/-! DEFINITION. The frame commands DECODE, DECODE.K, DECODE.J and REARM (40_frame_decode.md R156 to R160). -/

namespace Sys2Proof.Machine

/-- What DECODE_BODY has done before its case on the result: working registers, DIAG, FRAME_READY <- 0, Rearm
(40_frame_decode.md R157). -/
def consumeFrame (sel : Selected) (s : State) : State :=
  dropFrame (writeDiag (diagWord sel.kr sel.jr) (setWork sel.work s))

/-- The case of DECODE_BODY on the result (40_frame_decode.md R157). -/
def deliver (d : Bool) (res : FrameResult) (s : State) : State :=
  match res with
  | .malformed => raise .malformedFrame 1#4 (writeEvent 0#32 0#32 0#32 s)
  | .chkFail p => raise .checksumMismatch 1#4 (writeEvent 0#32 0#32 p s)
  | .event e =>
    if d && e.kind == .key then dispatchBody 1#4 (markEvent (writeEvent (ev0Word e) (ev1Word e) e.raw s))
    else markEvent (writeEvent (ev0Word e) (ev1Word e) e.raw s)

/-- DECODE_BODY(D, SELECT) (40_frame_decode.md R157); `sel` is what SELECT yields in the state before. -/
def decodeBody (d : Bool) (sel : Selected) (s : State) : State :=
  if s.status.frameReady then deliver d sel.res (consumeFrame sel s) else raise .noFrame 1#4 s

/-- DECODE, automatic (40_frame_decode.md R157). -/
def execDecode (d : Bool) (s : State) : Host.Outcome State Fault Refusal :=
  .next (completeCommand (decodeBody d (discriminate s s.work) s))

/-- DECODE.K, keyboard only (40_frame_decode.md R158). -/
def execDecodeK (d : Bool) (s : State) : Host.Outcome State Fault Refusal :=
  .next (completeCommand (decodeBody d (selectKbd s s.work) s))

/-- DECODE.J, joystick only (40_frame_decode.md R159). -/
def execDecodeJ (d : Bool) (s : State) : Host.Outcome State Fault Refusal :=
  .next (completeCommand (decodeBody d (selectJoy s .notTried s.work) s))

/-- REARM (40_frame_decode.md R160). -/
def execRearm (s : State) : Host.Outcome State Fault Refusal :=
  .next (completeCommand (dropFrame s))

end Sys2Proof.Machine
end

