-- ==== Sys2Proof/Machine/Dispatch.lean ====
section
/-! DEFINITION. EXECUTE of a legal command, one arm per command (44_control.md R241). -/

namespace Sys2Proof.Machine

def exec (i : Instr) (s : State) : Host.Outcome State Fault Refusal :=
  match i with
  | .nop => Sys2Proof.Machine.execNop s
  | .decode d => Sys2Proof.Machine.execDecode d s
  | .decodeK d => Sys2Proof.Machine.execDecodeK d s
  | .decodeJ d => Sys2Proof.Machine.execDecodeJ d s
  | .dispatch => Sys2Proof.Machine.execDispatch s
  | .apply code p a => Sys2Proof.Machine.execApply code p a s
  | .mreset => Sys2Proof.Machine.execMreset s
  | .rearm => Sys2Proof.Machine.execRearm s
  | .lookup code sh => Sys2Proof.Machine.execLookup code sh s

end Sys2Proof.Machine
end

