-- ==== Sys2Proof/Machine/Engine.lean ====
section
/-! DEFINITION. What a step is: the host's next event, or the engine's EXECUTE (44_control.md R241), and which of the two
moves (93_implementation_defined.md I21; log entry 4). -/

namespace Sys2Proof.Machine

/-- EXECUTE of an accepted word: classify and run (44_control.md R241). -/
def executeCommand (v : Word) (s : State) : Host.Outcome State Fault Refusal :=
  match decode v with
  | .ok i => exec i s
  | .error _ => .next (illegalCommand v s)

/-- The engine's first step after power-on reset: INIT_STATE(), then BUSY <- 0; DONE is not set
(70_reset_and_hazards.md R281). The select lines keep the levels of its last XWRITE(63, 0) (43_matrix.md R210; log entry 7,
DEDUCED). -/
def initialReset (s : State) : State :=
  let t := initState s
  { t with status := { t.status with busy := false }, job := none, hold := 0 }

/-- The engine's one atomic step for its job. -/
def engineStep (j : Job) (s : State) : Host.Outcome State Fault Refusal :=
  match j with
  | .initialReset => .next (initialReset s)
  | .command v => executeCommand v s

/-- Whether the engine moves next while it has a job: when no more accesses are to land, when the host has no access to
make, or when the host only polls (a poll that reads BUSY = 1 changes nothing, 20_memory.md R63). -/
def engineNext (s : State) : Bool :=
  match s.program with
  | [] => true
  | .wait :: _ => true
  | _ :: _ => s.hold == 0

/-- One host access of those still to land is used up. -/
def spendAccess (s : State) : State := { s with hold := s.hold - 1 }

/-- The host issues its next event; with nothing to issue, the idle block keeps all state (60_exceptions.md R267). -/
def hostStep (s : State) : State :=
  match s.program with
  | [] => s
  | e :: rest => hostEvent e { s with program := rest }

/-- One step of the machine: with no job the host moves; with one, `engineNext` says who does. -/
def machineStep (s : State) : Host.Outcome State Fault Refusal :=
  match s.job with
  | none => .next (hostStep s)
  | some j => if engineNext s then engineStep j s else .next (hostStep (spendAccess s))

/-- The state in which the engine has accepted this word and moves next: the word is pending, BUSY = 1, and no host access
lands before EXECUTE (log entry 5). -/
def placeCommand (v : Word) (s : State) : State :=
  { s with job := some (.command v), status := { s.status with busy := true }, hold := 0 }

end Sys2Proof.Machine
end

