-- ==== Sys2Proof/Machine/Step.lean ====
section
/-! DEFINITION. One step of the machine (44_control.md R241), and the placing of a command where the next step runs it. -/

namespace Sys2Proof.Machine

/-- One step: an atomic engine step or one host event. -/
def step (s : State) : Host.Outcome State Fault Refusal := machineStep s

/-- The table's word as the engine's pending command, run by the very next step (log entry 5). -/
def State.withFetchWord (s : State) (nbits w : Nat) : State := placeCommand (BitVec.ofNat 32 (w % 2 ^ nbits)) s

end Sys2Proof.Machine
end

