-- ==== Sys2Proof/Safety.lean ====
section
/-! DEFINITION. What the claims speak of: the array's closed set (43_matrix.md R213), what the decoders see of a frame, the
register map by word index, and the predicates of a good state. -/

namespace Sys2Proof.Machine

/-- One event as the switch array takes it: a reset opens every crosspoint, a write sets its own (43_matrix.md R213). -/
def arrayAfter (c : Coord) (closed : Bool) : PinEvent → Bool
  | .xwrite c' v => if c' = c then v else closed
  | .xreset => false
  | .restore _ => closed
  | .rearm => closed

/-- Whether crosspoint c of the external array is closed after a pin trace: the last XWrite(c, v) after the most recent
XReset has v = 1 (43_matrix.md R213). -/
def arrayClosed (tr : List PinEvent) (c : Coord) : Bool := tr.foldl (arrayAfter c) false

/-- The 66 events of INIT_STATE() (43_matrix.md R219). -/
def initTrace : List PinEvent :=
  .xreset :: ((List.range 64).map fun c => .xwrite (BitVec.ofNat 6 c) false) ++ [.restore .released]

/-- The pins after a last crosspoint write of v to c: select and data levels kept, strobe low (43_matrix.md R210). -/
def pinsAfterWrite (p : Pins) (c : Coord) (v : Bool) : Pins :=
  { p with rowSel := c.extractLsb' 3 3, colSel := c.extractLsb' 0 3, data := v, strobe := false }

/-- The pins after INIT_STATE(): the last write is XWRITE(63, 0), and the restore line is released (R210, R211, R212, R219). -/
def pinsAfterInit (p : Pins) : Pins :=
  { rowSel := 7#3, colSel := 7#3, data := false, strobe := false, xrst := false, restoreOe := false, rearm := p.rearm }

/-- The block's state as rst_n rises out of any other state (70_reset_and_hazards.md R281, R284): the reset state, with what
stands outside the block, and a schedule of its own for the initial MRESET (log entries 4 and 10); `rest` is the host's
program still to come. -/
def resetFrom (s : State) (rest : List HostEvent) : State :=
  { State.reset with
    params := s.params, trace := s.trace, reads := s.reads, program := rest
    hold := Config.accessesBeforeExecute s.draws, draws := s.draws + 1 }

/-- STATUS after a command that raised no error: BUSY 0, DONE 1 (44_control.md R241). -/
def statusDone (st : Status) : Status := { st with busy := false, done := true }

/-- STATUS after a command that raised an error: ERR_OVF if ERR was 1, ERR, BUSY 0, DONE 1 (60_exceptions.md R253,
44_control.md R241). -/
def statusDoneErr (st : Status) : Status :=
  { st with busy := false, done := true, err := true, errOvf := st.errOvf || st.err }

/-- 42_dispatch.md R190 on the bits of an entry's word (10_state.md R30). -/
def Applies (e : Word) (c : Byte) (sh : Bool) : Prop :=
  e.getLsbD 31 = true ∧ e.extractLsb' 0 8 = c ∧ (e.getLsbD 16 = false ∨ sh = false) ∧ (e.getLsbD 17 = false ∨ sh = true)

/-- Entry i of the table is the lowest-indexed one that applies (42_dispatch.md R192). -/
def FirstHit (s : State) (c : Byte) (sh : Bool) (i : Nat) : Prop :=
  i < s.params.xlatDepth ∧ Applies (xlatEntry s.mem i) c sh ∧ ∀ j < i, ¬ Applies (xlatEntry s.mem j) c sh

/-- No entry of the table applies (42_dispatch.md R192). -/
def NoHit (s : State) (c : Byte) (sh : Bool) : Prop := ∀ i < s.params.xlatDepth, ¬ Applies (xlatEntry s.mem i) c sh

/-- The input shift state of the current event (42_dispatch.md R191). -/
def ShiftOf (s : State) : Bool := decide (s.ev1.extractLsb' 8 8 &&& s.ctrl.modShiftMask ≠ 0#8)

/-- LOOKUP_RES of a hit at i on entry e, field by field (10_state.md R36). -/
def HitWord (w e : Word) (i : Nat) (sh : Bool) : Prop :=
  w.extractLsb' 0 8 = e.extractLsb' 8 8 ∧ w.extractLsb' 8 8 = e.extractLsb' 16 8 ∧ w.extractLsb' 16 8 = BitVec.ofNat 8 i ∧
  w.getLsbD 24 = sh ∧ w.getLsbD 25 = e.getLsbD 18 ∧ w.extractLsb' 26 5 = 0#5 ∧ w.getLsbD 31 = true

/-- LOOKUP_RES of a miss: only SHIFT_IN may be 1 (10_state.md R36). -/
def MissWord (sh : Bool) : Word := if sh then 0x01000000#32 else 0#32

/-! ### A frame's pulses (40_frame_decode.md R130 to R152) -/

/-- Duration i of a frame, `PB[i]` of the decoders' rules. -/
def pulse (fr : List Dur) (i : Nat) : Dur := fr.getD i 0#16

/-- The windows T_KS0 to T_KS3, that of band j at index j (40_frame_decode.md R142). -/
def bandWindow (t : Timing) (j : Nat) : Word := [t.ks0, t.ks1, t.ks2, t.ks3].getD j 0#32

/-- g is the least band whose window matches d (R142). -/
def LeastBand (t : Timing) (d : Dur) (g : BitVec 2) : Prop :=
  inWindow d (bandWindow t g.toNat) = true ∧ ∀ j < g.toNat, inWindow d (bandWindow t j) = false

/-- No band's window matches d (R142). -/
def NoBand (t : Timing) (d : Dur) : Prop := ∀ j < 4, inWindow d (bandWindow t j) = false

/-- Both header pulses of a keyboard frame match (R141). -/
def KeyboardHeader (t : Timing) (fr : List Dur) : Prop :=
  inWindow (pulse fr 0) t.khm = true ∧ inWindow (pulse fr 1) t.khs = true

/-- Pair k of a keyboard frame stands in it and carries the group g: mark 2 + 2k, space 3 + 2k (R142). -/
def KeyboardPair (t : Timing) (fr : List Dur) (k : Nat) (g : BitVec 2) : Prop :=
  3 + 2 * k < fr.length ∧ inWindow (pulse fr (2 + 2 * k)) t.kbm = true ∧ LeastBand t (pulse fr (3 + 2 * k)) g

/-- A short joystick pulse; short is tested before long (R151). -/
def JoyShort (t : Timing) (d : Dur) : Prop := inWindow d t.js = true

/-- A long joystick pulse (R151). -/
def JoyLong (t : Timing) (d : Dur) : Prop := inWindow d t.js = false ∧ inWindow d t.jl = true

/-- A joystick pulse of neither class (R151). -/
def JoyNeither (t : Timing) (d : Dur) : Prop := inWindow d t.js = false ∧ inWindow d t.jl = false

/-- SKIP as the loop comes to bit k: CTRL.JOY_SKIP_INIT at the first, 1 after every emitted bit (R150, R151). -/
def joySkip (c : Ctrl) (k : Nat) : Bool := if k = 0 then c.joySkipInit else true

/-- With SKIP = sk and IDX = i, the next bit is emitted by pulse i' - 1 and IDX becomes i' (R151): a long pulse emits, a
short one emits if SKIP is 0, and a short one with SKIP = 1 leaves the bit to the pulse after it. -/
def JoyBit (t : Timing) (fr : List Dur) (sk : Bool) (i i' : Nat) : Prop :=
  i' ≤ fr.length ∧
  (i' = i + 1 ∧ (JoyLong t (pulse fr i) ∨ sk = false ∧ JoyShort t (pulse fr i)) ∨
   i' = i + 2 ∧ sk = true ∧ JoyShort t (pulse fr i) ∧ ¬ JoyNeither t (pulse fr (i + 1)))

/-- The result codes of a rejection in DIAG (10_state.md R32). -/
def diagReasons : List (Reason × BitVec 4) :=
  [(.short, 2#4), (.hdrMark, 3#4), (.hdrSpace, 4#4), (.bitMark, 5#4), (.band, 6#4), (.exhausted, 7#4), (.classMiss, 8#4)]

/-- What DIAG shows of a decoder that did not accept: 0 and 0 where it was not tried, else the code of its reason and the
index (10_state.md R32, 40_frame_decode.md R156). -/
def Missed {α : Type} (r : Attempt α) (code : BitVec 4) (idx : Nat) : Prop :=
  r = .notTried ∧ code = 0#4 ∧ idx = 0 ∨ ∃ q, r = .reject q idx ∧ (q, code) ∈ diagReasons

/-! ### The register map by word index addr[11:2] (20_memory.md R61; 10_state.md R20 to R38) -/

/-- The word index of an address. -/
def wordIndex (a : BusAddr) : Nat := (a.extractLsb' 2 10).toNat

/-- The word of every register below 0x068, bit by bit: its word index and its value. -/
def registerWords (s : State) : List (Nat × Word) :=
  [(0, 0x4349524B#32),
   (1, (0#16 ++ s.ctrl.modShiftMask ++ 0#4 ++ BitVec.ofBool s.ctrl.joySkipInit ++ BitVec.ofBool s.ctrl.joyMarkBit
          ++ BitVec.ofBool s.ctrl.joyEn ++ BitVec.ofBool s.ctrl.kbdEn : BitVec 32)),
   (2, (0#25 ++ BitVec.ofBool s.status.invFault ++ BitVec.ofBool s.status.done ++ BitVec.ofBool s.status.errOvf
          ++ BitVec.ofBool s.status.err ++ BitVec.ofBool s.status.evNew ++ BitVec.ofBool s.status.frameReady
          ++ BitVec.ofBool s.status.busy : BitVec 32)),
   (3, (0#26 ++ BitVec.ofBool s.irqEn.doneIe ++ 0#1 ++ BitVec.ofBool s.irqEn.errIe ++ BitVec.ofBool s.irqEn.evNewIe ++ 0#2
          : BitVec 32)),
   (4, (0#12 ++ s.err.addr ++ s.err.op ++ s.err.code : BitVec 32)),
   (5, 0#32),
   (6, (0#24 ++ s.pbCount : BitVec 32)),
   (7, s.diag), (8, s.ev0), (9, s.ev1), (10, s.evRaw), (11, s.lookupRes),
   (12, (0#28 ++ BitVec.ofBool s.restore ++ BitVec.ofBool s.rheld ++ BitVec.ofBool s.lheld ++ BitVec.ofBool s.caps
          : BitVec 32)),
   (13, s.matrix.extractLsb' 0 32), (14, s.matrix.extractLsb' 32 32),
   (16, s.timing.khm), (17, s.timing.khs), (18, s.timing.kbm), (19, s.timing.ks0), (20, s.timing.ks1), (21, s.timing.ks2),
   (22, s.timing.ks3), (23, s.timing.jhm), (24, s.timing.js), (25, s.timing.jl)]

/-- The word indices of ERR, DIAG, EV0, EV1, EV_RAW, LOOKUP_RES, LATCH, MATRIX_LO and MATRIX_HI, whose reads are free while
BUSY = 1 (20_memory.md R68). -/
def resultIndices : List Nat := [4, 7, 8, 9, 10, 11, 12, 13, 14]

/-! ### Good states -/

/-- A code that APPLY_BODY does not turn away (43_matrix.md R221, R222). -/
def AssignedCode (prm : Params) (c : Byte) : Prop :=
  c.toNat < 0x40 ∨ c = prm.codeCaps ∨ c = prm.codeRestore ∨ c = prm.codeReset

/-- R225: M[LSHIFT_COORD] = (lheld or caps). -/
def LeftShiftHolds (s : State) : Prop := crossAt s.matrix s.params.lshiftCoord = (s.lheld || s.caps)

/-- R46: STATUS.BUSY is 1 exactly while the engine has a job. -/
def BusyIffJob (s : State) : Prop := s.status.busy = s.job.isSome

/-- The memory's canonical form. -/
def MemoryCanonical (s : State) : Prop := s.mem.wf = true

/-- R43: restore drives restore_oe_o; R210, R211: strobe_o and xrst_o rest at 0; rearm_o is a pulse. -/
def PinsAtRest (s : State) : Prop :=
  s.pins.restoreOe = s.restore ∧ s.pins.strobe = false ∧ s.pins.xrst = false ∧ s.pins.rearm = false

/-- R213: once the initial MRESET has run, the array's closed set is the set of crosspoints whose M bit is 1. -/
def ArrayMirrored (s : State) : Prop :=
  s.job ≠ some .initialReset → ∀ c : Coord, arrayClosed s.trace c = crossAt s.matrix c

/-- The bits that the result registers' layouts reserve read 0 (10_state.md R32 to R36; payload bits 31:28 are 0, R35). -/
def ReservedBitsZero (s : State) : Prop :=
  s.diag &&& 0xFF000000#32 = 0#32 ∧ s.ev0 &&& 0xFF00F0FC#32 = 0#32 ∧ s.ev1 &&& 0xFFFF0000#32 = 0#32 ∧
  s.evRaw &&& 0xF0000000#32 = 0#32 ∧ s.lookupRes &&& 0x7C000000#32 = 0#32

/-- R228: STATUS.INV_FAULT is 0 and ERR.CODE is not INVARIANT_VIOLATION. -/
def NoInvariantFault (s : State) : Prop := s.status.invFault = false ∧ s.err.code ≠ errorCode .invariantViolation

/-- The build parameters meet the constraints of 00_scope.md R7. -/
def ParamsLegal (s : State) : Prop := s.params.wf = true

end Sys2Proof.Machine
end

