-- ==== Sys2Proof/Certificates/Slice0/Obligations.lean ====
section
/-! DEFINITION. The statements. Each docstring names the rule it formalises, or says that it is the model's choice. An
equation `exec i s = .next { s with … }` says at once that the instruction completes, what it writes, and that every other
field of the state (every register, flag, latch, pin, and all of memory) is unchanged. -/

open Sys2Proof Sys2Proof.Machine

/-! ### Encoding -/

/-- R92 to R98, R240: decoding the word of a well-formed command gives the command back. -/
def Obligations.DecodeInvertsEncode : Prop := ∀ i : Instr, i.wf = true → decode (encode i) = .ok i

/-- R99, R240: a word that decodes is the one word of its command; no bit of a legal word is dropped. -/
def Obligations.EncodeInvertsDecode : Prop := ∀ (v : Word) (i : Instr), decode v = .ok i → encode i = v

/-- R99: the three ways a word is illegal, and that every other word is legal; the reserved bits are those of R92 to R98. -/
def Obligations.IllegalWordsAreThoseOfTheFormats : Prop :=
  ∀ v : Word,
    (decode v = .error .reservedOpcode ↔ 7 ≤ (v.extractLsb' 0 4).toNat) ∧
    (decode v = .error .reservedMode ↔ v.extractLsb' 0 4 = 1#4 ∧ v.extractLsb' 5 2 = 3#2) ∧
    (decode v = .error .reservedBits ↔
      (v.extractLsb' 0 4).toNat < 7 ∧ ¬ (v.extractLsb' 0 4 = 1#4 ∧ v.extractLsb' 5 2 = 3#2) ∧
      v &&& (if v.extractLsb' 0 4 = 1#4 then 0xFFFFFF80#32
             else if v.extractLsb' 0 4 = 3#4 then 0xFFFC00F0#32
             else if v.extractLsb' 0 4 = 6#4 then 0xFFFE00F0#32
             else 0xFFFFFFF0#32) ≠ 0#32)

/-- R92 to R98: words of every format decode to the commands they stand for. -/
def Obligations.FormatWordsDecode : Prop :=
  decode 0x00000000#32 = .ok .nop ∧ decode 0x00000011#32 = .ok (.decode true) ∧
  decode 0x00000021#32 = .ok (.decodeK false) ∧ decode 0x00000051#32 = .ok (.decodeJ true) ∧
  decode 0x00000002#32 = .ok .dispatch ∧ decode 0x00034103#32 = .ok (.apply 0x41#8 true true) ∧
  decode 0x00010F03#32 = .ok (.apply 0x0F#8 true false) ∧ decode 0x00000004#32 = .ok .mreset ∧
  decode 0x00000005#32 = .ok .rearm ∧ decode 0x00011E06#32 = .ok (.lookup 0x1E#8 true)

/-! ### The step -/

/-- R241: EXECUTE runs the decoded command of the pending word. When the engine moves next is the free schedule of log
entry 4 (DESIGN CHOICE). -/
def Obligations.StepRunsTheDecodedCommand : Prop :=
  ∀ (s : State) (v : Word) (i : Instr), s.job = some (.command v) → decode v = .ok i → i.wf = true →
    engineNext s = true → step s = exec i s

/-- R243: an illegal word records ILLEGAL_CMD with ERR.OP = v[3:0], sets DONE, and changes nothing else. -/
def Obligations.IllegalWordOnlyRecordsItsError : Prop :=
  ∀ (s : State) (v : Word) (e : Illegal), s.job = some (.command v) → decode v = .error e → engineNext s = true →
    step s = .next
      { s with
        status := statusDoneErr s.status
        err := { code := 5#4, op := v.extractLsb' 0 4, addr := 0#12 }
        job := none, hold := 0 }

/-- R73(a), R267, R281, R284: with no command in flight the host's next event takes effect, power-on reset among them, and
with none to make the idle block keeps all state. The host's program as data is the model's choice (log entry 5); so is
WAIT as one event that stays while BUSY is 1, ends when it is 0, and adds nothing to `reads` (log entry 6, DESIGN CHOICE,
where R101 makes it a repeated read); so is what a power-on reset keeps (log entry 10). -/
def Obligations.HostAccessesTakeEffectInOrder : Prop :=
  ∀ s : State, s.job = none →
    (s.program = [] → step s = .next s) ∧
    (∀ a rest, s.program = .read a :: rest → step s = .next (memRead a { s with program := rest })) ∧
    (∀ a v rest, s.program = .write a v :: rest → step s = .next (memWrite a v { s with program := rest })) ∧
    (∀ rest, s.program = .wait :: rest → s.status.busy = false → step s = .next { s with program := rest }) ∧
    (∀ rest, s.program = .wait :: rest → s.status.busy = true → step s = .next s) ∧
    (∀ rest, s.program = .powerOnReset :: rest → step s = .next (resetFrom s rest))

/-- R241, R284: host accesses may fall between ACCEPT and EXECUTE, and follow the BUSY rules; a power-on reset there abandons
the command. The count `hold` and who moves when is the model's schedule (log entry 4, DESIGN CHOICE): the engine moves
when no access is left to land, or when the host makes none, being done or in a WAIT (log entry 6). -/
def Obligations.HostAccessMayLandBeforeExecute : Prop :=
  ∀ (s : State) (j : Job), s.job = some j →
    (engineNext s = true ↔ s.hold = 0 ∨ s.program = [] ∨ ∃ rest, s.program = .wait :: rest) ∧
    (∀ n, s.hold = n + 1 →
      (∀ a rest, s.program = .read a :: rest → step s = .next (memRead a { s with program := rest, hold := n })) ∧
      (∀ a v rest, s.program = .write a v :: rest →
        step s = .next (memWrite a v { s with program := rest, hold := n })) ∧
      (∀ rest, s.program = .powerOnReset :: rest → step s = .next (resetFrom s rest)))

/-- R241, I21: every accepted command (and the initial MRESET) completes, after no more host accesses than the schedule
says. Without a power-on reset on the way (log entry 10). -/
def Obligations.EveryAcceptedCommandCompletes : Prop :=
  ∀ (s : State) (j : Job), s.job = some j → s.status.busy = true → HostEvent.powerOnReset ∉ s.program →
    ∃ (k : Nat) (t : State), k ≤ s.hold + 1 ∧ Sys2Proof.core.run k s = .next t ∧
      t.job = none ∧ t.status.busy = false

/-! ### Reset -/

/-- R20 to R38, R47, R51, R281, R284: what every register reads, and the pins' levels, as rst_n rises: at State.reset, and
after a power-on reset out of any state. -/
def Obligations.ResetValuesAsTheSpecStates : Prop :=
  ∀ t : State, (t = State.reset ∨ ∃ s, t = powerOnReset s) →
    readReg t .id = 0x4349524B#32 ∧ readReg t .ctrl = 0x0000000F#32 ∧
    readReg t .status = 0x00000001#32 ∧ readReg t .irqEn = 0#32 ∧ readReg t .err = 0#32 ∧
    readReg t .cmd = 0#32 ∧ readReg t .pbCount = 0#32 ∧ readReg t .diag = 0#32 ∧
    readReg t .ev0 = 0#32 ∧ readReg t .ev1 = 0#32 ∧ readReg t .evRaw = 0#32 ∧
    readReg t .lookupRes = 0#32 ∧ readReg t .latch = 0#32 ∧ readReg t .matrixLo = 0#32 ∧
    readReg t .matrixHi = 0#32 ∧
    readReg t (.window .khm) = 0x00640BB8#32 ∧ readReg t (.window .khs) = 0x006405DC#32 ∧
    readReg t (.window .kbm) = 0x006401F4#32 ∧ readReg t (.window .ks0) = 0x006401F4#32 ∧
    readReg t (.window .ks1) = 0x006403E8#32 ∧ readReg t (.window .ks2) = 0x006405DC#32 ∧
    readReg t (.window .ks3) = 0x006407D0#32 ∧ readReg t (.window .jhm) = 0x00640960#32 ∧
    readReg t (.window .js) = 0x00640258#32 ∧ readReg t (.window .jl) = 0x006404B0#32 ∧
    (∀ i, readReg t (.pb i) = 0#32) ∧ (∀ i, readReg t (.xlat i) = 0#32) ∧
    t.pins = { rowSel := 0#3, colSel := 0#3, data := false, strobe := false, xrst := false, restoreOe := false,
                         rearm := false } ∧
    irqOut t = false ∧ t.job = some .initialReset

/-- R281: the engine's first step is INIT_STATE() and then BUSY <- 0; DONE is not set. That the select lines then keep the
levels of INIT_STATE()'s last crosspoint write (R210), and are not back at the level 0 they have as rst_n rises (R47, R51),
is the model's reading (log entry 7, DEDUCED). -/
def Obligations.InitialResetRunsInitState : Prop :=
  ∀ s : State, s.job = some .initialReset → engineNext s = true →
    step s = .next
      { s with
        status := { s.status with busy := false }
        matrix := 0#64, caps := false, lheld := false, rheld := false, restore := false
        trace := s.trace ++ initTrace, pins := pinsAfterInit s.pins
        job := none, hold := 0 }

/-- The reset state meets every invariant of the next section (R46, R51, R213, R225, R228). -/
def Obligations.ResetStateIsGood : Prop :=
  LeftShiftHolds State.reset ∧ BusyIffJob State.reset ∧ MemoryCanonical State.reset ∧ PinsAtRest State.reset ∧
  ArrayMirrored State.reset ∧ ReservedBitsZero State.reset ∧ NoInvariantFault State.reset ∧ ParamsLegal State.reset

/-! ### Invariants that every step keeps -/

/-- R225: after every command, M[LSHIFT_COORD] = (lheld or caps). -/
def Obligations.StepKeepsLeftShiftInvariant : Prop :=
  ∀ s t : State, ParamsLegal s → LeftShiftHolds s → step s = .next t → ParamsLegal t ∧ LeftShiftHolds t

/-- R228: the invariant check never fires: INV_FAULT stays 0 and error 4 is never recorded. -/
def Obligations.StepNeverRecordsInvariantViolation : Prop :=
  ∀ s t : State, ParamsLegal s → LeftShiftHolds s → NoInvariantFault s → step s = .next t → NoInvariantFault t

/-- R46, R67, R241: BUSY is 1 exactly while the engine has a command (or the initial MRESET) in flight. -/
def Obligations.StepKeepsBusyIffJob : Prop := ∀ s t : State, BusyIffJob s → step s = .next t → BusyIffJob t

/-- The memory that holds PB and XLAT keeps its canonical form. The form is the model's choice (log entry 9). -/
def Obligations.StepKeepsMemoryCanonical : Prop :=
  ∀ s t : State, MemoryCanonical s → step s = .next t → MemoryCanonical t

/-- R43, R210, R211, R212: between steps restore_oe_o follows the restore latch, and strobe_o, xrst_o and rearm_o are 0. -/
def Obligations.StepKeepsPinsAtRest : Prop := ∀ s t : State, PinsAtRest s → step s = .next t → PinsAtRest t

/-- R213: after the power-on MRESET, the array's closed set equals the set of crosspoints whose M bit is 1. -/
def Obligations.StepKeepsArrayMirrored : Prop :=
  ∀ s t : State, BusyIffJob s → ArrayMirrored s → step s = .next t → ArrayMirrored t

/-- R32 to R36: the reserved bits of the result registers read 0, and EV_RAW has no bit above 27. -/
def Obligations.StepKeepsReservedBitsZero : Prop :=
  ∀ s t : State, ReservedBitsZero s → step s = .next t → ReservedBitsZero t

/-! ### NOP, REARM, MRESET -/

/-- R242: NOP changes no register other than STATUS.BUSY and STATUS.DONE, and emits no pin event. -/
def Obligations.NopOnlyCompletes : Prop :=
  ∀ s : State, exec .nop s = .next { s with status := statusDone s.status, job := none, hold := 0 }

/-- R160: REARM clears FRAME_READY, emits Rearm, and changes nothing else. -/
def Obligations.RearmDropsTheFrame : Prop :=
  ∀ s : State, exec .rearm s = .next
    { s with
      status := { statusDone s.status with frameReady := false }
      trace := s.trace ++ [.rearm], pins := { s.pins with rearm := false }
      job := none, hold := 0 }

/-- R219, R220, R223: MRESET, and a press of CODE_RESET, emit the 66 events of INIT_STATE() in order, clear M and the four
latches, and keep all else. -/
def Obligations.MresetAndResetCodeEnterTheInitialState : Prop :=
  ∀ s : State,
    exec .mreset s = .next
      { s with
        status := statusDone s.status
        matrix := 0#64, caps := false, lheld := false, rheld := false, restore := false
        trace := s.trace ++ initTrace, pins := pinsAfterInit s.pins
        job := none, hold := 0 } ∧
    (ParamsLegal s → ∀ a, exec (.apply s.params.codeReset true a) s = exec .mreset s)

/-! ### APPLY -/

/-- R214: a press of CODE_CAPS toggles caps and writes lheld or caps, with the new caps, to the left-shift crosspoint. -/
def Obligations.CapsPressToggles : Prop :=
  ∀ (s : State) (a : Bool), ∃ m : BitVec 64,
    (∀ c, crossAt m c = if c = s.params.lshiftCoord then (s.lheld || !s.caps) else crossAt s.matrix c) ∧
    exec (.apply s.params.codeCaps true a) s = .next
      { s with
        status := statusDone s.status, caps := !s.caps, matrix := m
        trace := s.trace ++ [.xwrite s.params.lshiftCoord (s.lheld || !s.caps)]
        pins := pinsAfterWrite s.pins s.params.lshiftCoord (s.lheld || !s.caps)
        job := none, hold := 0 }

/-- R214, R220, R230: a release of CODE_CAPS or of CODE_RESET changes no state and emits nothing. -/
def Obligations.CapsAndResetReleaseDoNothing : Prop :=
  ∀ (s : State) (c : Byte) (a : Bool), ParamsLegal s → LeftShiftHolds s →
    c = s.params.codeCaps ∨ c = s.params.codeReset →
    exec (.apply c false a) s = .next { s with status := statusDone s.status, job := none, hold := 0 }

/-- R215: CODE_RESTORE drives the line low on press and releases it on release; no matrix bit changes. -/
def Obligations.RestoreCodeDrivesTheLine : Prop :=
  ∀ (s : State) (p a : Bool), ParamsLegal s → LeftShiftHolds s →
    exec (.apply s.params.codeRestore p a) s = .next
      { s with
        status := statusDone s.status, restore := p
        trace := s.trace ++ [.restore (if p then .low else .released)]
        pins := { s.pins with restoreOe := p }
        job := none, hold := 0 }

/-- R216, R217: the left-shift coordinate sets lheld and writes p or caps; the right-shift coordinate sets rheld and
writes p. A is ignored. -/
def Obligations.ShiftCoordinatesSetTheirLatches : Prop :=
  ∀ (s : State) (p a : Bool), ParamsLegal s → LeftShiftHolds s →
    (∃ m : BitVec 64,
      (∀ c, crossAt m c = if c = s.params.lshiftCoord then (p || s.caps) else crossAt s.matrix c) ∧
      exec (.apply (s.params.lshiftCoord.setWidth 8) p a) s = .next
        { s with
          status := statusDone s.status, lheld := p, matrix := m
          trace := s.trace ++ [.xwrite s.params.lshiftCoord (p || s.caps)]
          pins := pinsAfterWrite s.pins s.params.lshiftCoord (p || s.caps)
          job := none, hold := 0 }) ∧
    (∃ m : BitVec 64,
      (∀ c, crossAt m c = if c = s.params.rshiftCoord then p else crossAt s.matrix c) ∧
      exec (.apply (s.params.rshiftCoord.setWidth 8) p a) s = .next
        { s with
          status := statusDone s.status, rheld := p, matrix := m
          trace := s.trace ++ [.xwrite s.params.rshiftCoord p]
          pins := pinsAfterWrite s.pins s.params.rshiftCoord p
          job := none, hold := 0 })

/-- R218: any other coordinate; with A = 1 the right-shift write comes first, on press and on release. -/
def Obligations.OrdinaryKeyWithAutoShift : Prop :=
  ∀ (s : State) (k : Coord) (p a : Bool), ParamsLegal s → LeftShiftHolds s →
    k ≠ s.params.lshiftCoord → k ≠ s.params.rshiftCoord → ∃ m : BitVec 64,
    (∀ c, crossAt m c =
      if c = k then p else if a = true ∧ c = s.params.rshiftCoord then (p || s.rheld) else crossAt s.matrix c) ∧
    exec (.apply (k.setWidth 8) p a) s = .next
      { s with
        status := statusDone s.status, matrix := m
        trace := s.trace ++ (if a then [.xwrite s.params.rshiftCoord (p || s.rheld)] else []) ++ [.xwrite k p]
        pins := pinsAfterWrite s.pins k p
        job := none, hold := 0 }

/-- R221, R254: an unassigned code of 0x40..0xFF records RESERVED_CODE with OP 3 and changes nothing else. -/
def Obligations.UnassignedCodeIsRecorded : Prop :=
  ∀ (s : State) (c : Byte) (p a : Bool), ¬ AssignedCode s.params c →
    exec (.apply c p a) s = .next
      { s with
        status := statusDoneErr s.status, err := { code := 9#4, op := 3#4, addr := 0#12 }
        job := none, hold := 0 }

/-- R229: a second press of any code but CODE_CAPS leaves the latches and M as the first left them. -/
def Obligations.SecondPressChangesNoSwitch : Prop :=
  ∀ (s t u : State) (c : Byte) (a : Bool), ParamsLegal s → c ≠ s.params.codeCaps →
    exec (.apply c true a) s = .next t → exec (.apply c true a) t = .next u →
    u.caps = t.caps ∧ u.lheld = t.lheld ∧ u.rheld = t.rheld ∧ u.restore = t.restore ∧ u.matrix = t.matrix

/-- R210 to R212, R47: the levels of every pin event, in order, with the pins at rest before it. A crosspoint write: the
selects and data stand before the strobe rises, do not change while it is high, and are held after it falls; the strobe is
high in exactly one phase, of at least T_STB clocks. XReset: xrst_o high for at least T_RST clocks, the strobe at 0
throughout. Restore: the line's new level. Rearm: rearm_o high for one clock (clocks are minima carried as data, log entry
11). After the event every pin keeps the levels of the last phase. -/
def Obligations.PinEventsHaveTheirWaveforms : Prop :=
  ∀ (prm : Params) (p : Pins), p.strobe = false → p.xrst = false → p.rearm = false →
    (∀ (c : Coord) (v : Bool), ∃ a b d e : Phase, waveform prm p (.xwrite c v) = [a, b, d, e] ∧
      a.levels = { p with rowSel := c.extractLsb' 3 3, colSel := c.extractLsb' 0 3 } ∧
      b.levels = { a.levels with data := v } ∧ d.levels = { b.levels with strobe := true } ∧ e.levels = b.levels ∧
      a.levels.strobe = false ∧ b.levels.strobe = false ∧
      b.minClocks = prm.tSu ∧ d.minClocks = prm.tStb ∧ e.minClocks = prm.tHd ∧
      settle prm p (.xwrite c v) = e.levels) ∧
    (∃ a b : Phase, waveform prm p .xreset = [a, b] ∧
      a.levels = { p with xrst := true } ∧ a.levels.strobe = false ∧ a.minClocks = prm.tRst ∧ b.levels = p ∧
      settle prm p .xreset = p) ∧
    (∀ l : RestoreLevel, ∃ a : Phase, waveform prm p (.restore l) = [a] ∧
      a.levels = { p with restoreOe := decide (l = .low) } ∧ settle prm p (.restore l) = a.levels) ∧
    (∃ a b : Phase, waveform prm p .rearm = [a, b] ∧
      a.levels = { p with rearm := true } ∧ a.minClocks = 1 ∧ b.levels = p ∧ settle prm p .rearm = p)

/-! ### LOOKUP and DISPATCH -/

/-- R190, R192: LOOKUP reports the first applicable entry, and on a miss only the shift state; nothing else changes. -/
def Obligations.LookupReportsFirstApplicable : Prop :=
  ∀ (s : State) (c : Byte) (sh : Bool),
    (∀ i, FirstHit s c sh i → ∃ w, HitWord w (xlatEntry s.mem i) i sh ∧
      exec (.lookup c sh) s = .next { s with lookupRes := w, status := statusDone s.status, job := none, hold := 0 }) ∧
    (NoHit s c sh →
      exec (.lookup c sh) s = .next
        { s with lookupRes := MissWord sh, status := statusDone s.status, job := none, hold := 0 })

/-- R195: DISPATCH of an event that is not KEY changes nothing and raises no error. -/
def Obligations.DispatchIgnoresOtherKinds : Prop :=
  ∀ s : State, s.ev0.extractLsb' 0 2 ≠ 1#2 →
    exec .dispatch s = .next { s with status := statusDone s.status, job := none, hold := 0 }

/-- R193, R254: a KEY event with no applicable entry records UNKNOWN_INPUT_KEY; only LOOKUP_RES and the error change. -/
def Obligations.DispatchUnknownKeyIsRecorded : Prop :=
  ∀ s : State, s.ev0.extractLsb' 0 2 = 1#2 → NoHit s (s.ev1.extractLsb' 0 8) (ShiftOf s) →
    exec .dispatch s = .next
      { s with
        lookupRes := MissWord (ShiftOf s)
        status := statusDoneErr s.status, err := { code := 3#4, op := 2#4, addr := 0#12 }
        job := none, hold := 0 }

/-- R196 (and its release, R193): a KEY event whose entry names an ordinary coordinate without OUT_SHIFT writes that
coordinate with not REL, and no other matrix bit or latch. -/
def Obligations.DispatchWritesOneCrosspoint : Prop :=
  ∀ (s : State) (i : Nat) (k : Coord), ParamsLegal s → LeftShiftHolds s →
    s.ev0.extractLsb' 0 2 = 1#2 → FirstHit s (s.ev1.extractLsb' 0 8) (ShiftOf s) i →
    (xlatEntry s.mem i).extractLsb' 8 8 = k.setWidth 8 → (xlatEntry s.mem i).getLsbD 18 = false →
    k ≠ s.params.lshiftCoord → k ≠ s.params.rshiftCoord → ∃ (m : BitVec 64) (w : Word),
    (∀ c, crossAt m c = if c = k then !s.ev0.getLsbD 8 else crossAt s.matrix c) ∧
    HitWord w (xlatEntry s.mem i) i (ShiftOf s) ∧
    exec .dispatch s = .next
      { s with
        lookupRes := w, status := statusDone s.status, matrix := m
        trace := s.trace ++ [.xwrite k (!s.ev0.getLsbD 8)]
        pins := pinsAfterWrite s.pins k (!s.ev0.getLsbD 8)
        job := none, hold := 0 }

/-- R193, R194, R254: DISPATCH of a hit reports it in LOOKUP_RES and acts as APPLY of the entry's OUT, not REL and OUT_SHIFT;
an unassigned OUT records RESERVED_CODE with OP 2 and changes nothing else. -/
def Obligations.DispatchActsAsApplyOfTheEntry : Prop :=
  ∀ (s : State) (i : Nat), s.ev0.extractLsb' 0 2 = 1#2 → FirstHit s (s.ev1.extractLsb' 0 8) (ShiftOf s) i → ∃ w : Word,
    HitWord w (xlatEntry s.mem i) i (ShiftOf s) ∧
    (ParamsLegal s → LeftShiftHolds s → AssignedCode s.params ((xlatEntry s.mem i).extractLsb' 8 8) →
      exec .dispatch s =
        exec (.apply ((xlatEntry s.mem i).extractLsb' 8 8) (!s.ev0.getLsbD 8) ((xlatEntry s.mem i).getLsbD 18))
          { s with lookupRes := w }) ∧
    (¬ AssignedCode s.params ((xlatEntry s.mem i).extractLsb' 8 8) →
      exec .dispatch s = .next
        { s with
          lookupRes := w
          status := statusDoneErr s.status, err := { code := 9#4, op := 2#4, addr := 0#12 }
          job := none, hold := 0 })

/-! ### The decoders -/

/-- R130: the window match in exact integers. -/
def Obligations.WindowMatchIsExact : Prop :=
  ∀ (d : Dur) (w : Word), inWindow d w = true ↔
    ((w.extractLsb' 0 16).toNat : Int) - (w.extractLsb' 16 16).toNat ≤ d.toNat ∧
    (d.toNat : Int) ≤ (w.extractLsb' 0 16).toNat + (w.extractLsb' 16 16).toNat

/-- R131, R140 to R144: the frame is PB[0..n-1] with n = min(COUNT, PB_DEPTH); what the keyboard decoder answers for every
frame. A frame is too short, or fails its header, or has k good pairs before the first that is missing or fails, or has
all 14: then pair j is payload[2j+1:2j], payload[31:28] is 0, and 30 pulses are consumed, later ones ignored. -/
def Obligations.KeyboardDecoderAnswers : Prop :=
  (∀ s : State, (frame s).length = min s.pbCount.toNat s.params.pbDepth ∧
    ∀ i < (frame s).length, readReg s (.pb i) = (pulse (frame s) i).setWidth 32) ∧
  ∀ (t : Timing) (fr : List Dur) (w : Work),
    (fr.length < 17 → (kbd t fr w).1 = .reject .short 0) ∧
    (17 ≤ fr.length → inWindow (pulse fr 0) t.khm = false → (kbd t fr w).1 = .reject .hdrMark 0) ∧
    (17 ≤ fr.length → inWindow (pulse fr 0) t.khm = true → inWindow (pulse fr 1) t.khs = false →
      (kbd t fr w).1 = .reject .hdrSpace 1) ∧
    (∀ (g : Nat → BitVec 2) (k : Nat), 17 ≤ fr.length → KeyboardHeader t fr → (∀ j < k, KeyboardPair t fr j (g j)) →
      (k < 14 →
        (fr.length ≤ 2 + 2 * k → (kbd t fr w).1 = .reject .exhausted (2 + 2 * k)) ∧
        (2 + 2 * k < fr.length → inWindow (pulse fr (2 + 2 * k)) t.kbm = false →
          (kbd t fr w).1 = .reject .bitMark (2 + 2 * k)) ∧
        (fr.length = 3 + 2 * k → inWindow (pulse fr (2 + 2 * k)) t.kbm = true →
          (kbd t fr w).1 = .reject .exhausted (3 + 2 * k)) ∧
        (3 + 2 * k < fr.length → inWindow (pulse fr (2 + 2 * k)) t.kbm = true → NoBand t (pulse fr (3 + 2 * k)) →
          (kbd t fr w).1 = .reject .band (3 + 2 * k))) ∧
      (k = 14 → ∃ p : Word, (kbd t fr w).1 = .ok p 30 ∧
        (∀ j < 14, p.extractLsb' (2 * j) 2 = g j) ∧ p.extractLsb' 28 4 = 0#4))

/-- R150 to R152: what the joystick decoder answers for every frame. E k is IDX after k bits. A frame is too short, or fails
its header, or emits m bits before a pulse is missing or of neither class, or emits all 16: then bit k, most significant
first, is JOY_MARK_BIT where its emitting pulse E (k+1) - 1 has an even index and its complement where odd, and from 17 to
33 pulses are consumed. -/
def Obligations.JoystickDecoderAnswers : Prop :=
  ∀ (t : Timing) (c : Ctrl) (fr : List Dur) (w : Work),
    (fr.length < 17 → (joy t c fr w).1 = .reject .short 0) ∧
    (17 ≤ fr.length → inWindow (pulse fr 0) t.jhm = false → (joy t c fr w).1 = .reject .hdrMark 0) ∧
    (∀ (E : Nat → Nat) (m : Nat), 17 ≤ fr.length → inWindow (pulse fr 0) t.jhm = true → E 0 = 1 →
      (∀ k < m, JoyBit t fr (joySkip c k) (E k) (E (k + 1))) →
      (m < 16 →
        (fr.length ≤ E m → (joy t c fr w).1 = .reject .exhausted (E m)) ∧
        (E m < fr.length → JoyNeither t (pulse fr (E m)) → (joy t c fr w).1 = .reject .classMiss (E m)) ∧
        (joySkip c m = true → JoyShort t (pulse fr (E m)) → fr.length = E m + 1 →
          (joy t c fr w).1 = .reject .exhausted (E m + 1)) ∧
        (joySkip c m = true → JoyShort t (pulse fr (E m)) → E m + 1 < fr.length → JoyNeither t (pulse fr (E m + 1)) →
          (joy t c fr w).1 = .reject .classMiss (E m + 1))) ∧
      (m = 16 → ∃ d : BitVec 16, (joy t c fr w).1 = .ok d (E 16) ∧
        ∀ k < 16, d.getLsbD (15 - k) = if (E (k + 1) - 1) % 2 = 0 then c.joyMarkBit else !c.joyMarkBit)) ∧
    (∀ (d : BitVec 16) (n : Nat), (joy t c fr w).1 = .ok d n → 17 ≤ n ∧ n ≤ 33 ∧ n ≤ fr.length)

/-- R170: a payload is valid iff 2 plus the number of 1 bits in p[23:0] equals p[27:24]. -/
def Obligations.ChecksumIsPopcountPlusTwo : Prop :=
  ∀ p : Word, payloadValid p = true ↔
    2 + ((List.range 24).map fun i => (p.getLsbD i).toNat).sum = (p.extractLsb' 24 4).toNat

/-- R179(d): from a valid payload, flipping any single bit of p[27:0] makes it invalid. -/
def Obligations.SingleBitFlipInvalidates : Prop :=
  ∀ (p : Word) (i : Nat), i < 28 → payloadValid p = true → payloadValid (p ^^^ (1#32 <<< i)) = false

/-! ### DECODE, DECODE.K, DECODE.J -/

/-- R157, R254: a DECODE of any mode with FRAME_READY = 0 records NO_FRAME and changes nothing else. -/
def Obligations.DecodeWithoutFrameIsNoFrame : Prop :=
  ∀ (s : State) (d : Bool), s.status.frameReady = false → ∀ i ∈ [Instr.decode d, .decodeK d, .decodeJ d],
    exec i s = .next
      { s with
        status := statusDoneErr s.status, err := { code := 7#4, op := 1#4, addr := 0#12 }
        job := none, hold := 0 }

/-- R155, R157, R158, R171, R172, R180: a valid KEY frame, D = 0. The working registers' new values are unobservable (R45). -/
def Obligations.KeyFrameGivesKeyEvent : Prop :=
  ∀ (s : State) (p : Word) (n : Nat) (i : Instr), s.status.frameReady = true →
    (i = .decodeK false ∨ i = .decode false ∧ s.ctrl.kbdEn = true) →
    (kbd s.timing (frame s) s.work).1 = .ok p n → payloadValid p = true → p.getLsbD 17 = true → ∃ w : Work,
    exec i s = .next
      { s with
        diag := (0#16 ++ BitVec.ofNat 8 n ++ 0#4 ++ 1#4 : BitVec 32)
        ev0 := (0#8 ++ p.extractLsb' 16 8 ++ 0#6 ++ BitVec.ofBool (p.getLsbD 22) ++ BitVec.ofBool (p.getLsbD 23) ++ 0#6
                 ++ 1#2 : BitVec 32)
        ev1 := (0#16 ++ p.extractLsb' 8 8 ++ p.extractLsb' 0 8 : BitVec 32)
        evRaw := p, work := w
        status := { statusDone s.status with frameReady := false, evNew := true }
        trace := s.trace ++ [.rearm], pins := { s.pins with rearm := false }
        job := none, hold := 0 }

/-- R171, R174 to R176, R180: a valid joystick-as-keyboard frame, with the sentinel for the all-zero payload; never
dispatched (R157). JOYKB_SENTINEL is any value of 0x0000001..0xFFFFFFF (R7, log entry 2). -/
def Obligations.JoykbFrameGivesJoykbEvent : Prop :=
  ∀ (s : State) (p : Word) (n : Nat) (d : Bool) (i : Instr), s.status.frameReady = true →
    (i = .decodeK d ∨ i = .decode d ∧ s.ctrl.kbdEn = true) →
    (kbd s.timing (frame s) s.work).1 = .ok p n → payloadValid p = true → p.getLsbD 17 = false → ∃ w : Work,
    (1 ≤ Config.joykbSentinel.toNat ∧ Config.joykbSentinel.toNat ≤ 0xFFFFFFF) ∧
    exec i s = .next
      { s with
        diag := (0#16 ++ BitVec.ofNat 8 n ++ 0#4 ++ 1#4 : BitVec 32)
        ev0 := (0#8 ++ p.extractLsb' 16 8 ++ 0#14 ++ 3#2 : BitVec 32)
        ev1 := (0#16 ++ p.extractLsb' 4 6 ++ 0#2 ++ p.extractLsb' 10 6 ++ 0#2 : BitVec 32)
        evRaw := if p.extractLsb' 0 24 = 0#24 then Config.joykbSentinel else p
        work := w
        status := { statusDone s.status with frameReady := false, evNew := true }
        trace := s.trace ++ [.rearm], pins := { s.pins with rearm := false }
        job := none, hold := 0 }

/-- R32, R155, R156, R159, R177, R180: a joystick frame, by DECODE.J or, after a structural keyboard rejection or with the
keyboard decoder disabled, by DECODE; never dispatched. DIAG is {0, JIDX, KIDX, JRES = OK, KRES}. -/
def Obligations.JoystickFrameGivesJoyEvent : Prop :=
  ∀ (s : State) (b : BitVec 16) (n : Nat) (d : Bool) (i : Instr) (kr : Attempt Word) (kres : BitVec 4) (kidx : Nat),
    s.status.frameReady = true → (joy s.timing s.ctrl (frame s) s.work).1 = .ok b n → Missed kr kres kidx →
    (i = .decodeJ d ∧ kr = .notTried ∨
     i = .decode d ∧ s.ctrl.joyEn = true ∧
      kr = (if s.ctrl.kbdEn then (kbd s.timing (frame s) s.work).1 else .notTried)) → ∃ w : Work,
    exec i s = .next
      { s with
        diag := (0#8 ++ BitVec.ofNat 8 n ++ BitVec.ofNat 8 kidx ++ 1#4 ++ kres : BitVec 32)
        ev0 := (0#20 ++ BitVec.ofBool (b.getLsbD 15) ++ BitVec.ofBool (b.getLsbD 7) ++ 0#8 ++ 2#2 : BitVec 32)
        ev1 := (0#17 ++ b.extractLsb' 8 7 ++ 0#1 ++ b.extractLsb' 0 7 : BitVec 32)
        evRaw := (0#16 ++ b : BitVec 32), work := w
        status := { statusDone s.status with frameReady := false, evNew := true }
        trace := s.trace ++ [.rearm], pins := { s.pins with rearm := false }
        job := none, hold := 0 }

/-- R32, R155 to R159, R254: no tried decoder accepts: MALFORMED_FRAME, DIAG {0, JIDX, KIDX, JRES, KRES}, the frame consumed,
the event Invalid, nothing else. That DECODE.K leaves JRES and JIDX 0, its joystick decoder not tried, follows R156 and R158
against the vectors V-K2 to V-K8: the model's resolution (log entry 18, DEDUCED). -/
def Obligations.RejectedFrameIsMalformed : Prop :=
  ∀ (s : State) (d : Bool) (i : Instr) (kr : Attempt Word) (jr : Attempt (BitVec 16)) (kres jres : BitVec 4)
    (kidx jidx : Nat), s.status.frameReady = true →
    (i = .decodeK d ∧ kr = (kbd s.timing (frame s) s.work).1 ∧ jr = .notTried ∨
     i = .decodeJ d ∧ kr = .notTried ∧ jr = (joy s.timing s.ctrl (frame s) s.work).1 ∨
     i = .decode d ∧ (kr = if s.ctrl.kbdEn then (kbd s.timing (frame s) s.work).1 else .notTried) ∧
      (jr = if s.ctrl.joyEn then (joy s.timing s.ctrl (frame s) s.work).1 else .notTried)) →
    Missed kr kres kidx → Missed jr jres jidx → ∃ w : Work,
    exec i s = .next
      { s with
        diag := (0#8 ++ BitVec.ofNat 8 jidx ++ BitVec.ofNat 8 kidx ++ jres ++ kres : BitVec 32)
        ev0 := 0#32, ev1 := 0#32, evRaw := 0#32, work := w
        status := { statusDoneErr s.status with frameReady := false }
        err := { code := 1#4, op := 1#4, addr := 0#12 }
        trace := s.trace ++ [.rearm], pins := { s.pins with rearm := false }
        job := none, hold := 0 }

/-- R155, R157, R171, R180: a keyboard frame with a wrong checksum is final: CHECKSUM_MISMATCH, EV_RAW the payload, the
joystick decoder not tried, nothing dispatched. -/
def Obligations.ChecksumFailureIsFinal : Prop :=
  ∀ (s : State) (p : Word) (n : Nat) (d : Bool) (i : Instr), s.status.frameReady = true →
    (i = .decodeK d ∨ i = .decode d ∧ s.ctrl.kbdEn = true) →
    (kbd s.timing (frame s) s.work).1 = .ok p n → payloadValid p = false → ∃ w : Work,
    exec i s = .next
      { s with
        diag := (0#16 ++ BitVec.ofNat 8 n ++ 0#4 ++ 1#4 : BitVec 32)
        ev0 := 0#32, ev1 := 0#32, evRaw := p, work := w
        status := { statusDoneErr s.status with frameReady := false }
        err := { code := 2#4, op := 1#4, addr := 0#12 }
        trace := s.trace ++ [.rearm], pins := { s.pins with rearm := false }
        job := none, hold := 0 }

/-- R157, R245, R254: for a KEY frame, DECODE or DECODE.K with D = 1 ends where the same command with D = 0 followed by
DISPATCH ends, but that an error of the dispatch part (no entry, or an entry with an unassigned OUT) has ERR.OP = 1 in
place of 2. -/
def Obligations.CombinedDecodeIsDecodeThenDispatch : Prop :=
  ∀ (s : State) (p : Word) (n : Nat) (i j : Instr), s.status.frameReady = true →
    (i = .decodeK false ∧ j = .decodeK true ∨ i = .decode false ∧ j = .decode true ∧ s.ctrl.kbdEn = true) →
    (kbd s.timing (frame s) s.work).1 = .ok p n → payloadValid p = true → p.getLsbD 17 = true →
    ∃ (t u : State) (e : ErrReg), exec i s = .next t ∧ exec .dispatch t = .next u ∧ exec j s = .next { u with err := e } ∧
      (u.err = t.err ∧ e = t.err ∨ u.err.op = 2#4 ∧ e = { u.err with op := 1#4 }) ∧
      (NoHit t (t.ev1.extractLsb' 0 8) (ShiftOf t) ∨
        (∃ k, FirstHit t (t.ev1.extractLsb' 0 8) (ShiftOf t) k ∧
          ¬ AssignedCode t.params ((xlatEntry t.mem k).extractLsb' 8 8)) →
        u.err.op = 2#4 ∧ e = { u.err with op := 1#4 })

/-- R45, I34: the decoders' working registers cannot be observed. With other contents before, every command and every step of
the machine, a host read among them, ends in the same state but for those registers, and every register reads the same. -/
def Obligations.WorkingRegistersAreUnobservable : Prop :=
  (∀ (i : Instr) (s t : State) (w : Work), exec i s = .next t →
    ∃ w' : Work, exec i { s with work := w } = .next { t with work := w' }) ∧
  (∀ (s t : State) (w : Work), step s = .next t →
    ∃ w' : Work, step { s with work := w } = .next { t with work := w' }) ∧
  ∀ (s : State) (w : Work) (r : Reg), readReg { s with work := w } r = readReg s r

/-! ### Every command -/

/-- R161, R268: no command changes CTRL, IRQ_EN, PB_COUNT, a timing register, or any byte of PB or XLAT; nor, in the model,
the build parameters and the host's side. -/
def Obligations.CommandsKeepConfigurationAndMemory : Prop :=
  ∀ (i : Instr) (s t : State), exec i s = .next t →
    t.ctrl = s.ctrl ∧ t.irqEn = s.irqEn ∧ t.pbCount = s.pbCount ∧ t.timing = s.timing ∧
    (∀ a, t.mem.readByte a = s.mem.readByte a) ∧ t.mem = s.mem ∧
    t.params = s.params ∧ t.program = s.program ∧ t.reads = s.reads ∧ t.draws = s.draws

/-- R255: a command records at most one error: ERR_OVF changes only if ERR was already 1. -/
def Obligations.AtMostOneErrorPerCommand : Prop :=
  ∀ (i : Instr) (s t : State), exec i s = .next t → s.status.err = false →
    t.status.errOvf = s.status.errOvf ∧ (t.status.err = false → t.err = s.err)

/-- R254: a command that records an error leaves the latches, the matrix and the restore state as they were. -/
def Obligations.ErrorsLeaveTheMatrixAlone : Prop :=
  ∀ (i : Instr) (s t : State), ParamsLegal s → LeftShiftHolds s → exec i s = .next t →
    s.status.err = false → t.status.err = true →
    t.caps = s.caps ∧ t.lheld = s.lheld ∧ t.rheld = s.rheld ∧ t.restore = s.restore ∧ t.matrix = s.matrix

/-! ### The host bus -/

/-- R65: a STATUS write clears the W1C bits whose bit is 1 and changes nothing else, whatever BUSY is. -/
def Obligations.StatusWriteClearsOnes : Prop :=
  ∀ (s : State) (a : BusAddr) (v : Word), a.extractLsb' 2 10 = 2#10 →
    memWrite a v s =
      { s with
        status :=
          { s.status with
            evNew := if v.getLsbD 2 then false else s.status.evNew
            err := if v.getLsbD 3 then false else s.status.err
            errOvf := if v.getLsbD 4 then false else s.status.errOvf
            done := if v.getLsbD 5 then false else s.status.done } }

/-- R66: an accepted PB_COUNT write stores COUNT and sets FRAME_READY, whatever they were. -/
def Obligations.PbCountWriteHandsOverFrame : Prop :=
  ∀ (s : State) (a : BusAddr) (v : Word), a.extractLsb' 2 10 = 6#10 → s.status.busy = false →
    memWrite a v s =
      { s with pbCount := v.extractLsb' 0 8, status := { s.status with frameReady := true } }

/-- R67, R240, R241: a CMD write is accepted with BUSY = 0, and dropped with CMD_WHILE_BUSY with BUSY = 1. How many accesses
land before EXECUTE is a free value, with a draw of its own for each command (log entry 4, DESIGN CHOICE). -/
def Obligations.CmdWriteAcceptsOrDrops : Prop :=
  ∀ (s : State) (a : BusAddr) (v : Word), a.extractLsb' 2 10 = 5#10 →
    (s.status.busy = false →
      memWrite a v s =
        { s with
          status := { s.status with busy := true }, job := some (.command v)
          hold := Config.accessesBeforeExecute s.draws, draws := s.draws + 1 }) ∧
    (s.status.busy = true →
      memWrite a v s =
        { s with
          status := { s.status with err := true, errOvf := s.status.errOvf || s.status.err }
          err := { code := 6#4, op := v.extractLsb' 0 4, addr := 0#12 } })

/-- R69, R258: while BUSY = 1, a write of CTRL, a timing register, PB_COUNT, PB or XLAT is dropped with WRITE_WHILE_BUSY. -/
def Obligations.GuardedWriteWhileBusyIsDropped : Prop :=
  ∀ (s : State) (a : BusAddr) (v : Word) (x : Nat), ParamsLegal s → s.status.busy = true →
    x = (a.extractLsb' 2 10).toNat →
    x = 1 ∨ x = 6 ∨ 16 ≤ x ∧ x ≤ 25 ∨ 64 ≤ x ∧ x < 64 + s.params.pbDepth ∨ 256 ≤ x ∧ x < 256 + s.params.xlatDepth →
    memWrite a v s =
      { s with
        status := { s.status with err := true, errOvf := s.status.errOvf || s.status.err }
        err := { code := 8#4, op := 0xF#4, addr := BitVec.ofNat 12 (4 * x) } }

/-- R62, R64, R69: a write to a read-only register (ID, ERR, DIAG, EV0, EV1, EV_RAW, LOOKUP_RES, LATCH, MATRIX_LO, MATRIX_HI)
or to an unmapped address has no effect, whatever BUSY is; a read of an unmapped address returns 0. None is an error. -/
def Obligations.ReadOnlyAndUnmappedAddressesIgnoreWrites : Prop :=
  ∀ (s : State) (a : BusAddr) (v : Word),
    (wordIndex a ∈ [0, 4, 7, 8, 9, 10, 11, 12, 13, 14] → memWrite a v s = s) ∧
    (ParamsLegal s →
      wordIndex a = 15 ∨ 26 ≤ wordIndex a ∧ wordIndex a < 64 ∨
        64 + s.params.pbDepth ≤ wordIndex a ∧ wordIndex a < 256 ∨ 256 + s.params.xlatDepth ≤ wordIndex a →
      memWrite a v s = s ∧ memRead a s = { s with reads := s.reads ++ [0#32] })

/-- R61 to R63, R68: a read of any word address changes no register, and returns the value of the register at addr[11:2], bit
by bit as R20 to R38 lay it out, or 0 where none is mapped; but with BUSY = 1 the nine result registers return the free
value of the next draw (log entry 3). -/
def Obligations.ReadsHaveNoSideEffect : Prop :=
  ∀ (s : State) (a : BusAddr),
    (∀ w, (wordIndex a, w) ∈ registerWords s → s.status.busy = false ∨ wordIndex a ∉ resultIndices →
      memRead a s = { s with reads := s.reads ++ [w] }) ∧
    (s.status.busy = true → wordIndex a ∈ resultIndices →
      memRead a s = { s with reads := s.reads ++ [Config.busyRead s.draws], draws := s.draws + 1 }) ∧
    (ParamsLegal s →
      (∀ i < s.params.pbDepth, wordIndex a = 64 + i →
        memRead a s = { s with reads := s.reads ++ [s.mem.readWord (0x100 + 4 * i) &&& 0x0000FFFF#32] }) ∧
      (∀ i < s.params.xlatDepth, wordIndex a = 256 + i →
        memRead a s = { s with reads := s.reads ++ [s.mem.readWord (0x400 + 4 * i) &&& 0x80FFFFFF#32] }) ∧
      (wordIndex a = 15 ∨ 26 ≤ wordIndex a ∧ wordIndex a < 64 ∨
          64 + s.params.pbDepth ≤ wordIndex a ∧ wordIndex a < 256 ∨ 256 + s.params.xlatDepth ≤ wordIndex a →
        memRead a s = { s with reads := s.reads ++ [0#32] }))

/-- R21, R23, R27, R29, R30, R61, R62, R64, R69: a write of CTRL or of a timing register with BUSY = 0, and one of IRQ_EN
whatever BUSY is, sets that register's fields and changes nothing else; and what CTRL, IRQ_EN, PB_COUNT, and every PB and
XLAT entry read back, with reserved bits 0. The frames of PB_COUNT, PB, XLAT, STATUS and CMD writes have statements of
their own: PbCountWriteHandsOverFrame, EntryWriteLeavesOtherBytes, StatusWriteClearsOnes, CmdWriteAcceptsOrDrops. -/
def Obligations.WritableRegistersReadBack : Prop :=
  ∀ (s : State) (v : Word),
    (∀ a, wordIndex a = 3 →
      memWrite a v s =
        { s with irqEn := { evNewIe := v.getLsbD 2, errIe := v.getLsbD 3, doneIe := v.getLsbD 5 } } ∧
      readReg (memWrite a v s) .irqEn = v &&& 0x0000002C#32) ∧
    (s.status.busy = false → ∀ a : BusAddr,
      (wordIndex a = 1 →
        memWrite a v s =
          { s with
            ctrl :=
              { kbdEn := v.getLsbD 0, joyEn := v.getLsbD 1, joyMarkBit := v.getLsbD 2, joySkipInit := v.getLsbD 3
                modShiftMask := v.extractLsb' 8 8 } } ∧
        readReg (memWrite a v s) .ctrl = v &&& 0x0000FF0F#32) ∧
      (wordIndex a = 16 → memWrite a v s = { s with timing := { s.timing with khm := v } }) ∧
      (wordIndex a = 17 → memWrite a v s = { s with timing := { s.timing with khs := v } }) ∧
      (wordIndex a = 18 → memWrite a v s = { s with timing := { s.timing with kbm := v } }) ∧
      (wordIndex a = 19 → memWrite a v s = { s with timing := { s.timing with ks0 := v } }) ∧
      (wordIndex a = 20 → memWrite a v s = { s with timing := { s.timing with ks1 := v } }) ∧
      (wordIndex a = 21 → memWrite a v s = { s with timing := { s.timing with ks2 := v } }) ∧
      (wordIndex a = 22 → memWrite a v s = { s with timing := { s.timing with ks3 := v } }) ∧
      (wordIndex a = 23 → memWrite a v s = { s with timing := { s.timing with jhm := v } }) ∧
      (wordIndex a = 24 → memWrite a v s = { s with timing := { s.timing with js := v } }) ∧
      (wordIndex a = 25 → memWrite a v s = { s with timing := { s.timing with jl := v } })) ∧
    (s.status.busy = false → MemoryCanonical s → ParamsLegal s → ∀ a : BusAddr,
      (wordIndex a = 6 → readReg (memWrite a v s) .pbCount = v &&& 0x000000FF#32) ∧
      (∀ x < s.params.pbDepth, wordIndex a = 64 + x → readReg (memWrite a v s) (.pb x) = v &&& 0x0000FFFF#32) ∧
      (∀ x < s.params.xlatDepth, wordIndex a = 256 + x →
        readReg (memWrite a v s) (.xlat x) = v &&& 0x80FFFFFF#32))

/-- R29, R30, R64: a write of one PB or XLAT entry changes no byte of memory but the four of its word, and no register. -/
def Obligations.EntryWriteLeavesOtherBytes : Prop :=
  ∀ (s : State) (v : Word) (x : Nat), s.status.busy = false → MemoryCanonical s → ParamsLegal s →
    (x < s.params.pbDepth → ∃ m : Memory, memWrite (BitVec.ofNat 12 (pbAddr x)) v s = { s with mem := m } ∧
      ∀ b, b < pbAddr x ∨ pbAddr x + 4 ≤ b → m.readByte b = s.mem.readByte b) ∧
    (x < s.params.xlatDepth → ∃ m : Memory, memWrite (BitVec.ofNat 12 (xlatAddr x)) v s = { s with mem := m } ∧
      ∀ b, b < xlatAddr x ∨ xlatAddr x + 4 ≤ b → m.readByte b = s.mem.readByte b)

/-! ### The interrupt -/

/-- R256: irq_o is 1 exactly where an enabled cause is set: EV_NEW, ERR or DONE; and it rises in the step that sets the cause:
with DONE_IE, every command raises it. -/
def Obligations.IrqFollowsEnabledCauses : Prop :=
  (∀ s : State, irqOut s = true ↔
    s.status.evNew = true ∧ s.irqEn.evNewIe = true ∨ s.status.err = true ∧ s.irqEn.errIe = true ∨
    s.status.done = true ∧ s.irqEn.doneIe = true) ∧
  ∀ (i : Instr) (s t : State), s.irqEn.doneIe = true → exec i s = .next t → irqOut t = true
end

