-- ==== Sys2Proof/Laws/Memory.lean ====
section
/-! SUPPORT. The byte memory: reads after writes, and the canonical form that every write keeps. -/

namespace Sys2Proof.Machine

/-- The canonical form with a strict lower bound on the addresses, for inductions. -/
theorem memory_wf_cons (k : Nat) (v : Byte) (m : Memory) :
    Memory.wf ((k, v) :: m) = true ↔ (∀ x ∈ m, k < x.1) ∧ v ≠ unlistedByte ∧ Memory.wf m = true := by
  simp only [Memory.wf, List.pairwise_cons, List.all_cons, Bool.and_eq_true, decide_eq_true_eq, bne_iff_ne]
  tauto

theorem memory_wf_nil : Memory.wf [] = true := rfl

/-- Below every listed address a memory reads as unlisted. -/
theorem readByte_of_lt (m : Memory) (a : Nat) (h : ∀ x ∈ m, a < x.1) : m.readByte a = unlistedByte := by
  induction m with
  | nil => rfl
  | cons x m ih =>
    obtain ⟨k, v⟩ := x
    have hk : a < k := h (k, v) (by simp)
    rw [Memory.readByte, if_neg (by omega)]
    exact ih fun x hx => h x (by simp [hx])

/-- A byte write adds no address but its own. -/
theorem writeByte_mem_bound (m : Memory) (a : Nat) (b : Byte) (l : Nat) (hl : l < a) (h : ∀ x ∈ m, l < x.1) :
    ∀ x ∈ m.writeByte a b, l < x.1 := by
  induction m with
  | nil =>
    intro x hx
    rw [Memory.writeByte] at hx
    split at hx <;> simp_all
  | cons y m ih =>
    obtain ⟨k, v⟩ := y
    have ih' := ih fun x hx => h x (by simp [hx])
    intro x hx
    rw [Memory.writeByte] at hx
    split at hx
    · split at hx
      · exact h x hx
      · rcases List.mem_cons.1 hx with rfl | hx
        · exact hl
        · exact h x hx
    · split at hx
      · split at hx
        · exact h x (by simp [hx])
        · rcases List.mem_cons.1 hx with rfl | hx
          · exact hl
          · exact h x (by simp [hx])
      · rcases List.mem_cons.1 hx with rfl | hx
        · exact h _ (by simp)
        · exact ih' x hx

/-- A byte write keeps the canonical form. -/
theorem writeByte_wf (m : Memory) (a : Nat) (b : Byte) (h : m.wf = true) : (m.writeByte a b).wf = true := by
  induction m with
  | nil =>
    rw [Memory.writeByte]
    split
    · rfl
    · next hb => exact (memory_wf_cons a b []).2 ⟨by simp, hb, rfl⟩
  | cons y m ih =>
    obtain ⟨k, v⟩ := y
    obtain ⟨hlt, hv, hm⟩ := (memory_wf_cons k v m).1 h
    rw [Memory.writeByte]
    split
    · next hak =>
      split
      · exact h
      · next hb =>
        refine (memory_wf_cons a b _).2 ⟨?_, hb, h⟩
        intro x hx
        rcases List.mem_cons.1 hx with rfl | hx
        · exact hak
        · exact Nat.lt_trans hak (hlt x hx)
    · split
      · next hak =>
        split
        · exact hm
        · next hb => exact (memory_wf_cons a b m).2 ⟨fun x hx => hak ▸ hlt x hx, hb, hm⟩
      · next h1 h2 =>
        exact (memory_wf_cons k v _).2 ⟨writeByte_mem_bound m a b k (by omega) hlt, hv, ih hm⟩

/-- Read after write: the written byte at its address, every other byte as before. -/
theorem readByte_writeByte (m : Memory) (a c : Nat) (b : Byte) (h : m.wf = true) :
    (m.writeByte a b).readByte c = if c = a then b else m.readByte c := by
  induction m with
  | nil =>
    rw [Memory.writeByte]
    by_cases hb : b = unlistedByte
    · rw [if_pos hb, hb, Memory.readByte, ite_self]
    · rw [if_neg hb, Memory.readByte]
      exact if_congr eq_comm rfl rfl
  | cons y m ih =>
    obtain ⟨k, v⟩ := y
    obtain ⟨hlt, _, hm⟩ := (memory_wf_cons k v m).1 h
    rw [Memory.writeByte]
    split
    · next hak =>
      split
      · next hb =>
        split
        · next hca =>
          subst hca
          rw [Memory.readByte, if_neg (by omega), hb]
          exact readByte_of_lt m c fun x hx => Nat.lt_trans hak (hlt x hx)
        · rfl
      · rw [Memory.readByte]
        exact if_congr eq_comm rfl rfl
    · split
      · next hak =>
        subst hak
        split
        · next hb =>
          split
          · next hca =>
            subst hca
            rw [hb]
            exact readByte_of_lt m c hlt
          · next hca => rw [Memory.readByte, if_neg (by omega)]
        · simp only [Memory.readByte]
          by_cases hac : a = c
          · rw [if_pos hac, if_pos hac.symm]
          · rw [if_neg hac, if_neg (Ne.symm hac), if_neg hac]
      · next h1 h2 =>
        rw [Memory.readByte, ih hm, Memory.readByte]
        split <;> split <;> simp_all

/-- A word write keeps the canonical form. -/
theorem writeWord_wf (m : Memory) (a : Nat) (v : Word) (h : m.wf = true) : (m.writeWord a v).wf = true :=
  writeByte_wf _ _ _ (writeByte_wf _ _ _ (writeByte_wf _ _ _ (writeByte_wf _ _ _ h)))

/-- Read of one byte after a word write: the word's own byte inside its four addresses, as before outside them. -/
theorem readByte_writeWord (m : Memory) (a c : Nat) (v : Word) (h : m.wf = true) :
    (m.writeWord a v).readByte c =
      if c = a + 3 then v.extractLsb' 24 8 else if c = a + 2 then v.extractLsb' 16 8
      else if c = a + 1 then v.extractLsb' 8 8 else if c = a then v.extractLsb' 0 8 else m.readByte c := by
  have h1 := writeByte_wf m a (v.extractLsb' 0 8) h
  have h2 := writeByte_wf _ (a + 1) (v.extractLsb' 8 8) h1
  have h3 := writeByte_wf _ (a + 2) (v.extractLsb' 16 8) h2
  rw [Memory.writeWord, readByte_writeByte _ _ _ _ h3, readByte_writeByte _ _ _ _ h2, readByte_writeByte _ _ _ _ h1,
    readByte_writeByte _ _ _ _ h]

/-- Four bytes of a word put together give the word. -/
theorem word_of_bytes (v : Word) :
    (v.extractLsb' 24 8 ++ v.extractLsb' 16 8 ++ v.extractLsb' 8 8 ++ v.extractLsb' 0 8 : BitVec 32) = v := by
  ext i hi
  simp only [BitVec.getElem_append, BitVec.getElem_extractLsb']
  split
  · simp [BitVec.getLsbD_eq_getElem, hi]
  · split
    · rw [show 8 + (i - 8) = i by omega, BitVec.getLsbD_eq_getElem hi]
    · split
      · rw [show 16 + (i - 8 - 8) = i by omega, BitVec.getLsbD_eq_getElem hi]
      · rw [show 24 + (i - 8 - 8 - 8) = i by omega, BitVec.getLsbD_eq_getElem hi]

/-- A word read after a write of the same word. -/
theorem readWord_writeWord_same (m : Memory) (a : Nat) (v : Word) (h : m.wf = true) :
    (m.writeWord a v).readWord a = v := by
  simp only [Memory.readWord, readByte_writeWord m a _ v h]
  simpa using word_of_bytes v

/-- A byte outside the four of a written word reads as before. -/
theorem readByte_writeWord_apart (m : Memory) (a c : Nat) (v : Word) (h : m.wf = true) (hc : ∀ j < 4, c ≠ a + j) :
    (m.writeWord a v).readByte c = m.readByte c := by
  have h0 : c ≠ a := hc 0 (by decide)
  simp only [readByte_writeWord m a c v h, hc 3 (by decide), hc 2 (by decide), hc 1 (by decide), h0, if_false]

/-- A word read after a write of a word that shares no byte with it: its bytes one by one. -/
theorem readWord_writeWord_apart (m : Memory) (a c : Nat) (v : Word) (h : m.wf = true) (hac : a + 4 ≤ c ∨ c + 4 ≤ a) :
    (m.writeWord a v).readWord c = m.readWord c := by
  have bytes : ∀ k < 4, (m.writeWord a v).readByte (c + k) = m.readByte (c + k) := fun k hk =>
    readByte_writeWord_apart m a (c + k) v h fun j hj => by omega
  have b0 := bytes 0 (by decide)
  rw [Nat.add_zero] at b0
  simp only [Memory.readWord, bytes 1 (by decide), bytes 2 (by decide), bytes 3 (by decide), b0]

end Sys2Proof.Machine
end

