-- ==== Sys2Proof/Laws/FrameDecode.lean ====
section
/-! SUPPORT. What the decoders can answer, said once (40_frame_decode.md R130 to R152). -/

namespace Sys2Proof.Machine

/-- The window match as the two inequalities (R130). -/
theorem inWindow_iff (d : Dur) (w : Word) :
    inWindow d w = true ↔
      (winNom w).toNat ≤ d.toNat + (winTol w).toNat ∧ d.toNat ≤ (winNom w).toNat + (winTol w).toNat := by
  unfold inWindow
  rw [Bool.and_eq_true, decide_eq_true_eq, decide_eq_true_eq]

/-- The pulses from index i on are pulse i and the later ones. -/
theorem drop_eq_pulse_cons (fr : List Dur) (i : Nat) (h : i < fr.length) :
    fr.drop i = pulse fr i :: fr.drop (i + 1) := by
  rw [List.drop_eq_getElem_cons h]
  simp [pulse, h]

/-- The frame's length, the effective count (R131). -/
theorem frame_length (s : State) : (frame s).length = min s.pbCount.toNat s.params.pbDepth := by simp [frame]

/-! ### Keyboard decoder -/

/-- The band of a duration is the least one whose window matches (R142). -/
theorem band_of_leastBand (t : Timing) (d : Dur) (g : BitVec 2) (h : LeastBand t d g) : band t d = some g := by
  have below : ∀ j < g.toNat, ¬ inWindow d (bandWindow t j) = true := fun j hj => Bool.eq_false_iff.1 (h.2 j hj)
  have hg : g = 0#2 ∨ g = 1#2 ∨ g = 2#2 ∨ g = 3#2 := by
    clear below h
    revert g
    decide
  unfold band
  rcases hg with rfl | rfl | rfl | rfl
  · exact if_pos h.1
  · exact (if_neg (below 0 (by decide))).trans (if_pos h.1)
  · exact ((if_neg (below 0 (by decide))).trans (if_neg (below 1 (by decide)))).trans (if_pos h.1)
  · exact (((if_neg (below 0 (by decide))).trans (if_neg (below 1 (by decide)))).trans
      (if_neg (below 2 (by decide)))).trans (if_pos h.1)

/-- A duration has no band where no window matches (R142). -/
theorem band_of_noBand (t : Timing) (d : Dur) (h : NoBand t d) : band t d = none := by
  have none : ∀ j < 4, ¬ inWindow d (bandWindow t j) = true := fun j hj => Bool.eq_false_iff.1 (h j hj)
  exact (((if_neg (none 0 (by decide))).trans (if_neg (none 1 (by decide)))).trans
    (if_neg (none 2 (by decide)))).trans (if_neg (none 3 (by decide)))

/-- One pair accepted (R143). -/
theorem kbdPairs_pair (t : Timing) (k : Nat) (mark space : Dur) (rest : List Dur) (w : Work) (g : BitVec 2)
    (hm : inWindow mark t.kbm = true) (hs : band t space = some g) :
    kbdPairs t (k + 1) (mark :: space :: rest) w =
      kbdPairs t k rest
        { w with acc := accumulate w.acc g, idx := if k = 0 then w.idx + 1 else w.idx + 2 } := by
  rw [kbdPairs, if_pos hm]
  simp only [hs]

/-- What the pairs' loop can answer: the payload is the accumulator shifted by 4, after 30 pulses; a rejection names an
index that is the IDX register's. -/
theorem kbdPairs_cases (t : Timing) (k : Nat) (ds : List Dur) (w : Work) :
    (∃ w' : Work, kbdPairs t k ds w = (.ok (w'.acc >>> 4) 30, w')) ∨
    (∃ (r : Reason) (w' : Work), kbdPairs t k ds w = (.reject r w'.idx, w')) := by
  induction k generalizing ds w with
  | zero => exact .inl ⟨w, by rw [kbdPairs]⟩
  | succ k ih =>
    cases ds with
    | nil => exact .inr ⟨_, w, by rw [kbdPairs]⟩
    | cons mark ds =>
      rw [kbdPairs]
      split
      · cases ds with
        | nil => exact .inr ⟨_, _, rfl⟩
        | cons space rest =>
          dsimp only
          split
          · exact .inr ⟨.band, { w with idx := w.idx + 1 }, rfl⟩
          · exact ih rest _
      · exact .inr ⟨_, _, rfl⟩

/-- What KBD can answer. -/
theorem kbd_cases (t : Timing) (fr : List Dur) (w : Work) :
    (∃ w' : Work, kbd t fr w = (.ok (w'.acc >>> 4) 30, w')) ∨
    (∃ (r : Reason) (n : Nat) (w' : Work), kbd t fr w = (.reject r n, w')) := by
  unfold kbd
  split
  · exact .inr ⟨_, _, _, rfl⟩
  split
  · split
    · split
      · rcases kbdPairs_cases t 14 _ { w with acc := 0#32, idx := 2 } with ⟨w', h⟩ | ⟨r, w', h⟩
        · exact .inl ⟨w', h⟩
        · exact .inr ⟨r, _, w', h⟩
      · exact .inr ⟨_, _, _, rfl⟩
    · exact .inr ⟨_, _, _, rfl⟩
  · exact .inr ⟨_, _, _, rfl⟩

/-- An accepted keyboard frame: 30 pulses consumed, bits 31:28 of the payload 0 (R143, R144). -/
theorem kbd_ok (t : Timing) (fr : List Dur) (w : Work) (p : Word) (n : Nat) (h : (kbd t fr w).1 = .ok p n) :
    n = 30 ∧ p.extractLsb' 28 4 = 0#4 := by
  rcases kbd_cases t fr w with ⟨w', h'⟩ | ⟨r, m, w', h'⟩
  · rw [h'] at h
    injection h with h1 h2
    refine ⟨h2.symm, ?_⟩
    rw [← h1]
    apply BitVec.eq_of_getLsbD_eq
    intro i hi
    simp only [BitVec.getLsbD_extractLsb', BitVec.getLsbD_ushiftRight, hi, decide_true, Bool.true_and, BitVec.getLsbD_zero]
    exact BitVec.getLsbD_of_ge _ _ (by omega)
  · rw [h'] at h
    cases h

/-- A decoder never answers that it was not tried. -/
theorem kbd_tried (t : Timing) (fr : List Dur) (w : Work) : (kbd t fr w).1 ≠ .notTried := by
  rcases kbd_cases t fr w with ⟨w', h'⟩ | ⟨r, m, w', h'⟩ <;> rw [h'] <;> intro h <;> cases h

/-- The pairs' loop starts from ACC and IDX alone (R45). -/
theorem kbdPairs_work (t : Timing) (k : Nat) (ds : List Dur) (w v : Work) (ha : w.acc = v.acc) (hi : w.idx = v.idx) :
    (kbdPairs t k ds w).1 = (kbdPairs t k ds v).1 := by
  induction k generalizing ds w v with
  | zero => rw [kbdPairs, kbdPairs, ha]
  | succ k ih =>
    cases ds with
    | nil => rw [kbdPairs, kbdPairs, hi]
    | cons mark ds =>
      rw [kbdPairs, kbdPairs]
      split
      · cases ds with
        | nil => simp only [hi]
        | cons space rest =>
          dsimp only
          split
          · simp only [hi]
          · apply ih
            · simp only [ha]
            · simp only [hi]
      · simp only [hi]

/-- KBD reinitialises its working registers: what they held before does not show (R45). -/
theorem kbd_work (t : Timing) (fr : List Dur) (w v : Work) : (kbd t fr w).1 = (kbd t fr v).1 := by
  unfold kbd
  split
  · rfl
  split
  · split
    · split
      · exact kbdPairs_work t 14 _ _ _ rfl rfl
      · rfl
    · rfl
  · rfl

/-! ### Joystick decoder -/

/-- One bit emitted: the loop goes on from the pulse after the emitting one (R151). -/
theorem joyBits_bit (t : Timing) (c : Ctrl) (fr : List Dur) (w : Work) (i : Nat) (hb : w.bits < 16)
    (h : JoyBit t fr w.skip w.idx i) :
    joyBits t c (fr.drop w.idx) w =
      joyBits t c (fr.drop i) { emitBit (pulseBit c (i - 1)) w with idx := i } := by
  obtain ⟨hl, ⟨rfl, h⟩ | ⟨rfl, hs, hsh, hn⟩⟩ := h
  · rw [drop_eq_pulse_cons _ _ hl, joyBits, if_pos hb]
    rcases h with ⟨h1, h2⟩ | ⟨h1, h2⟩
    · simp [h1, h2]
    · rw [if_pos (show inWindow _ _ = true from h2)]
      simp [h1]
  · rw [drop_eq_pulse_cons _ _ (by omega), joyBits, if_pos hb,
      if_pos (show inWindow _ _ = true from hsh), if_pos hs,
      drop_eq_pulse_cons _ (w.idx + 1) hl, joyBits, if_pos hb]
    cases hj : inWindow (pulse fr (w.idx + 1)) t.js
    · have hlong : inWindow (pulse fr (w.idx + 1)) t.jl = true := by
        by_contra hc
        exact hn ⟨hj, by simpa using hc⟩
      simp only [hlong, if_true, Bool.false_eq_true, if_false]
      rfl
    · simp only [if_true, Bool.false_eq_true, if_false]
      rfl

/-- What the bit loop can answer. -/
theorem joyBits_cases (t : Timing) (c : Ctrl) (ds : List Dur) (w : Work) :
    (∃ w' : Work, joyBits t c ds w = (.ok w'.data w'.idx, w')) ∨
    (∃ (r : Reason) (w' : Work), joyBits t c ds w = (.reject r w'.idx, w')) := by
  induction ds generalizing w with
  | nil =>
    rw [joyBits]
    split
    · exact .inr ⟨_, w, rfl⟩
    · exact .inl ⟨w, rfl⟩
  | cons d ds ih =>
    rw [joyBits]
    split
    · split
      · split <;> exact ih _
      · split
        · exact ih _
        · exact .inr ⟨_, w, rfl⟩
    · exact .inl ⟨w, rfl⟩

/-- What JOY can answer. -/
theorem joy_cases (t : Timing) (c : Ctrl) (fr : List Dur) (w : Work) :
    (∃ w' : Work, joy t c fr w = (.ok w'.data w'.idx, w')) ∨
    (∃ (r : Reason) (n : Nat) (w' : Work), joy t c fr w = (.reject r n, w')) := by
  unfold joy
  split
  · exact .inr ⟨_, _, _, rfl⟩
  split
  · split
    · rcases joyBits_cases t c _ { w with skip := c.joySkipInit, data := 0#16, bits := 0, idx := 1 } with ⟨w', h⟩ | ⟨r, w', h⟩
      · exact .inl ⟨w', h⟩
      · exact .inr ⟨r, _, w', h⟩
    · exact .inr ⟨_, _, _, rfl⟩
  · exact .inr ⟨_, _, _, rfl⟩

/-- A decoder never answers that it was not tried. -/
theorem joy_tried (t : Timing) (c : Ctrl) (fr : List Dur) (w : Work) : (joy t c fr w).1 ≠ .notTried := by
  rcases joy_cases t c fr w with ⟨w', h'⟩ | ⟨r, m, w', h'⟩ <;> rw [h'] <;> intro h <;> cases h

/-- JOY sets all of its working registers first: what they held before does not show (R45). -/
theorem joy_work (t : Timing) (c : Ctrl) (fr : List Dur) (w v : Work) : (joy t c fr w).1 = (joy t c fr v).1 := by
  unfold joy
  split
  · rfl
  split
  · split
    · have : ∀ (ds : List Dur) (w v : Work), w.data = v.data → w.bits = v.bits → w.skip = v.skip → w.idx = v.idx →
          (joyBits t c ds w).1 = (joyBits t c ds v).1 := by
        intro ds
        induction ds with
        | nil =>
          intro w v h1 h2 h3 h4
          rw [joyBits, joyBits, h1, h2, h4]
          split <;> rfl
        | cons d ds ih =>
          intro w v h1 h2 h3 h4
          rw [joyBits, joyBits, h1, h2, h3, h4]
          split
          · split
            · split <;> apply ih <;> simp [emitBit, h1, h2, h4]
            · split
              · apply ih <;> simp [emitBit, h1, h2, h4]
              · rfl
          · rfl
      exact this _ _ _ rfl rfl rfl rfl
    · rfl
  · rfl

/-! ### The discriminator -/

/-- DISCRIMINATE with the keyboard decoder accepting (R155). -/
theorem discriminate_kbd (s : State) (w : Work) (p : Word) (n : Nat) (hk : s.ctrl.kbdEn = true)
    (h : (kbd s.timing (frame s) w).1 = .ok p n) : discriminate s w = selectKbd s w := by
  rw [discriminate, if_pos hk, h]

/-- DISCRIMINATE with the keyboard decoder rejecting (R155). -/
theorem discriminate_reject (s : State) (w : Work) (r : Reason) (n : Nat) (hk : s.ctrl.kbdEn = true)
    (h : (kbd s.timing (frame s) w).1 = .reject r n) :
    discriminate s w = discriminateJoy s (.reject r n) (kbd s.timing (frame s) w).2 := by
  rw [discriminate, if_pos hk, h]

/-- DISCRIMINATE with the keyboard decoder disabled (R155). -/
theorem discriminate_off (s : State) (w : Work) (hk : s.ctrl.kbdEn = false) :
    discriminate s w = discriminateJoy s .notTried w := by
  rw [discriminate, hk]
  rfl

/-- SELECT_K of an accepted frame (R158). -/
theorem selectKbd_ok (s : State) (w : Work) (p : Word) (n : Nat) (h : (kbd s.timing (frame s) w).1 = .ok p n) :
    selectKbd s w = ⟨.ok p n, .notTried, validateKbd p, (kbd s.timing (frame s) w).2⟩ := by
  unfold selectKbd
  simp only [h]

/-- SELECT_K of a rejected frame (R158). -/
theorem selectKbd_reject (s : State) (w : Work) (h : ∀ p n, (kbd s.timing (frame s) w).1 ≠ .ok p n) :
    selectKbd s w = ⟨(kbd s.timing (frame s) w).1, .notTried, .malformed, (kbd s.timing (frame s) w).2⟩ := by
  unfold selectKbd
  dsimp only
  split
  · next p n hp => exact absurd hp (h p n)
  · rfl

/-- SELECT_J of an accepted frame (R159). -/
theorem selectJoy_ok (s : State) (kr : Attempt Word) (w : Work) (d : BitVec 16) (n : Nat)
    (h : (joy s.timing s.ctrl (frame s) w).1 = .ok d n) :
    selectJoy s kr w = ⟨kr, .ok d n, .event (joyEvent d), (joy s.timing s.ctrl (frame s) w).2⟩ := by
  unfold selectJoy
  simp only [h]

/-- SELECT_J of a rejected frame (R159). -/
theorem selectJoy_reject (s : State) (kr : Attempt Word) (w : Work)
    (h : ∀ d n, (joy s.timing s.ctrl (frame s) w).1 ≠ .ok d n) :
    selectJoy s kr w =
      ⟨kr, (joy s.timing s.ctrl (frame s) w).1, .malformed, (joy s.timing s.ctrl (frame s) w).2⟩ := by
  unfold selectJoy
  dsimp only
  split
  · next d n hd => exact absurd hd (h d n)
  · rfl

end Sys2Proof.Machine
end

