-- ==== Sys2Proof/Laws/State.lean ====
section
/-! SUPPORT. For every named update of the state, one lemma per field: what the update leaves there. True by rfl, so that
no later proof unfolds a record update. -/

namespace Sys2Proof.Machine

variable (s : State)

/-! ### recordError -/

@[simp] theorem recordError_params (n : ErrorName) (op : BitVec 4) (a : BusAddr) : (recordError n op a s).params = s.params := rfl
@[simp] theorem recordError_ctrl (n : ErrorName) (op : BitVec 4) (a : BusAddr) : (recordError n op a s).ctrl = s.ctrl := rfl
@[simp] theorem recordError_status (n : ErrorName) (op : BitVec 4) (a : BusAddr) : (recordError n op a s).status = statusRecord s.status := rfl
@[simp] theorem recordError_irqEn (n : ErrorName) (op : BitVec 4) (a : BusAddr) : (recordError n op a s).irqEn = s.irqEn := rfl
@[simp] theorem recordError_err (n : ErrorName) (op : BitVec 4) (a : BusAddr) : (recordError n op a s).err = { code := errorCode n, op := op, addr := a } := rfl
@[simp] theorem recordError_pbCount (n : ErrorName) (op : BitVec 4) (a : BusAddr) : (recordError n op a s).pbCount = s.pbCount := rfl
@[simp] theorem recordError_diag (n : ErrorName) (op : BitVec 4) (a : BusAddr) : (recordError n op a s).diag = s.diag := rfl
@[simp] theorem recordError_ev0 (n : ErrorName) (op : BitVec 4) (a : BusAddr) : (recordError n op a s).ev0 = s.ev0 := rfl
@[simp] theorem recordError_ev1 (n : ErrorName) (op : BitVec 4) (a : BusAddr) : (recordError n op a s).ev1 = s.ev1 := rfl
@[simp] theorem recordError_evRaw (n : ErrorName) (op : BitVec 4) (a : BusAddr) : (recordError n op a s).evRaw = s.evRaw := rfl
@[simp] theorem recordError_lookupRes (n : ErrorName) (op : BitVec 4) (a : BusAddr) : (recordError n op a s).lookupRes = s.lookupRes := rfl
@[simp] theorem recordError_timing (n : ErrorName) (op : BitVec 4) (a : BusAddr) : (recordError n op a s).timing = s.timing := rfl
@[simp] theorem recordError_mem (n : ErrorName) (op : BitVec 4) (a : BusAddr) : (recordError n op a s).mem = s.mem := rfl
@[simp] theorem recordError_caps (n : ErrorName) (op : BitVec 4) (a : BusAddr) : (recordError n op a s).caps = s.caps := rfl
@[simp] theorem recordError_lheld (n : ErrorName) (op : BitVec 4) (a : BusAddr) : (recordError n op a s).lheld = s.lheld := rfl
@[simp] theorem recordError_rheld (n : ErrorName) (op : BitVec 4) (a : BusAddr) : (recordError n op a s).rheld = s.rheld := rfl
@[simp] theorem recordError_restore (n : ErrorName) (op : BitVec 4) (a : BusAddr) : (recordError n op a s).restore = s.restore := rfl
@[simp] theorem recordError_matrix (n : ErrorName) (op : BitVec 4) (a : BusAddr) : (recordError n op a s).matrix = s.matrix := rfl
@[simp] theorem recordError_work (n : ErrorName) (op : BitVec 4) (a : BusAddr) : (recordError n op a s).work = s.work := rfl
@[simp] theorem recordError_job (n : ErrorName) (op : BitVec 4) (a : BusAddr) : (recordError n op a s).job = s.job := rfl
@[simp] theorem recordError_pins (n : ErrorName) (op : BitVec 4) (a : BusAddr) : (recordError n op a s).pins = s.pins := rfl
@[simp] theorem recordError_trace (n : ErrorName) (op : BitVec 4) (a : BusAddr) : (recordError n op a s).trace = s.trace := rfl
@[simp] theorem recordError_hold (n : ErrorName) (op : BitVec 4) (a : BusAddr) : (recordError n op a s).hold = s.hold := rfl
@[simp] theorem recordError_draws (n : ErrorName) (op : BitVec 4) (a : BusAddr) : (recordError n op a s).draws = s.draws := rfl
@[simp] theorem recordError_program (n : ErrorName) (op : BitVec 4) (a : BusAddr) : (recordError n op a s).program = s.program := rfl
@[simp] theorem recordError_reads (n : ErrorName) (op : BitVec 4) (a : BusAddr) : (recordError n op a s).reads = s.reads := rfl

/-! ### raise -/

@[simp] theorem raise_params (n : ErrorName) (op : BitVec 4) : (raise n op s).params = s.params := rfl
@[simp] theorem raise_ctrl (n : ErrorName) (op : BitVec 4) : (raise n op s).ctrl = s.ctrl := rfl
@[simp] theorem raise_status (n : ErrorName) (op : BitVec 4) : (raise n op s).status = statusRecord s.status := rfl
@[simp] theorem raise_irqEn (n : ErrorName) (op : BitVec 4) : (raise n op s).irqEn = s.irqEn := rfl
@[simp] theorem raise_err (n : ErrorName) (op : BitVec 4) : (raise n op s).err = { code := errorCode n, op := op, addr := 0#12 } := rfl
@[simp] theorem raise_pbCount (n : ErrorName) (op : BitVec 4) : (raise n op s).pbCount = s.pbCount := rfl
@[simp] theorem raise_diag (n : ErrorName) (op : BitVec 4) : (raise n op s).diag = s.diag := rfl
@[simp] theorem raise_ev0 (n : ErrorName) (op : BitVec 4) : (raise n op s).ev0 = s.ev0 := rfl
@[simp] theorem raise_ev1 (n : ErrorName) (op : BitVec 4) : (raise n op s).ev1 = s.ev1 := rfl
@[simp] theorem raise_evRaw (n : ErrorName) (op : BitVec 4) : (raise n op s).evRaw = s.evRaw := rfl
@[simp] theorem raise_lookupRes (n : ErrorName) (op : BitVec 4) : (raise n op s).lookupRes = s.lookupRes := rfl
@[simp] theorem raise_timing (n : ErrorName) (op : BitVec 4) : (raise n op s).timing = s.timing := rfl
@[simp] theorem raise_mem (n : ErrorName) (op : BitVec 4) : (raise n op s).mem = s.mem := rfl
@[simp] theorem raise_caps (n : ErrorName) (op : BitVec 4) : (raise n op s).caps = s.caps := rfl
@[simp] theorem raise_lheld (n : ErrorName) (op : BitVec 4) : (raise n op s).lheld = s.lheld := rfl
@[simp] theorem raise_rheld (n : ErrorName) (op : BitVec 4) : (raise n op s).rheld = s.rheld := rfl
@[simp] theorem raise_restore (n : ErrorName) (op : BitVec 4) : (raise n op s).restore = s.restore := rfl
@[simp] theorem raise_matrix (n : ErrorName) (op : BitVec 4) : (raise n op s).matrix = s.matrix := rfl
@[simp] theorem raise_work (n : ErrorName) (op : BitVec 4) : (raise n op s).work = s.work := rfl
@[simp] theorem raise_job (n : ErrorName) (op : BitVec 4) : (raise n op s).job = s.job := rfl
@[simp] theorem raise_pins (n : ErrorName) (op : BitVec 4) : (raise n op s).pins = s.pins := rfl
@[simp] theorem raise_trace (n : ErrorName) (op : BitVec 4) : (raise n op s).trace = s.trace := rfl
@[simp] theorem raise_hold (n : ErrorName) (op : BitVec 4) : (raise n op s).hold = s.hold := rfl
@[simp] theorem raise_draws (n : ErrorName) (op : BitVec 4) : (raise n op s).draws = s.draws := rfl
@[simp] theorem raise_program (n : ErrorName) (op : BitVec 4) : (raise n op s).program = s.program := rfl
@[simp] theorem raise_reads (n : ErrorName) (op : BitVec 4) : (raise n op s).reads = s.reads := rfl

/-! ### emit -/

@[simp] theorem emit_params (e : PinEvent) : (emit e s).params = s.params := rfl
@[simp] theorem emit_ctrl (e : PinEvent) : (emit e s).ctrl = s.ctrl := rfl
@[simp] theorem emit_status (e : PinEvent) : (emit e s).status = s.status := rfl
@[simp] theorem emit_irqEn (e : PinEvent) : (emit e s).irqEn = s.irqEn := rfl
@[simp] theorem emit_err (e : PinEvent) : (emit e s).err = s.err := rfl
@[simp] theorem emit_pbCount (e : PinEvent) : (emit e s).pbCount = s.pbCount := rfl
@[simp] theorem emit_diag (e : PinEvent) : (emit e s).diag = s.diag := rfl
@[simp] theorem emit_ev0 (e : PinEvent) : (emit e s).ev0 = s.ev0 := rfl
@[simp] theorem emit_ev1 (e : PinEvent) : (emit e s).ev1 = s.ev1 := rfl
@[simp] theorem emit_evRaw (e : PinEvent) : (emit e s).evRaw = s.evRaw := rfl
@[simp] theorem emit_lookupRes (e : PinEvent) : (emit e s).lookupRes = s.lookupRes := rfl
@[simp] theorem emit_timing (e : PinEvent) : (emit e s).timing = s.timing := rfl
@[simp] theorem emit_mem (e : PinEvent) : (emit e s).mem = s.mem := rfl
@[simp] theorem emit_caps (e : PinEvent) : (emit e s).caps = s.caps := rfl
@[simp] theorem emit_lheld (e : PinEvent) : (emit e s).lheld = s.lheld := rfl
@[simp] theorem emit_rheld (e : PinEvent) : (emit e s).rheld = s.rheld := rfl
@[simp] theorem emit_restore (e : PinEvent) : (emit e s).restore = s.restore := rfl
@[simp] theorem emit_matrix (e : PinEvent) : (emit e s).matrix = s.matrix := rfl
@[simp] theorem emit_work (e : PinEvent) : (emit e s).work = s.work := rfl
@[simp] theorem emit_job (e : PinEvent) : (emit e s).job = s.job := rfl
@[simp] theorem emit_pins (e : PinEvent) : (emit e s).pins = settle s.params s.pins e := rfl
@[simp] theorem emit_trace (e : PinEvent) : (emit e s).trace = s.trace ++ [e] := rfl
@[simp] theorem emit_hold (e : PinEvent) : (emit e s).hold = s.hold := rfl
@[simp] theorem emit_draws (e : PinEvent) : (emit e s).draws = s.draws := rfl
@[simp] theorem emit_program (e : PinEvent) : (emit e s).program = s.program := rfl
@[simp] theorem emit_reads (e : PinEvent) : (emit e s).reads = s.reads := rfl

/-! ### xwrite -/

@[simp] theorem xwrite_params (c : Coord) (v : Bool) : (xwrite c v s).params = s.params := rfl
@[simp] theorem xwrite_ctrl (c : Coord) (v : Bool) : (xwrite c v s).ctrl = s.ctrl := rfl
@[simp] theorem xwrite_status (c : Coord) (v : Bool) : (xwrite c v s).status = s.status := rfl
@[simp] theorem xwrite_irqEn (c : Coord) (v : Bool) : (xwrite c v s).irqEn = s.irqEn := rfl
@[simp] theorem xwrite_err (c : Coord) (v : Bool) : (xwrite c v s).err = s.err := rfl
@[simp] theorem xwrite_pbCount (c : Coord) (v : Bool) : (xwrite c v s).pbCount = s.pbCount := rfl
@[simp] theorem xwrite_diag (c : Coord) (v : Bool) : (xwrite c v s).diag = s.diag := rfl
@[simp] theorem xwrite_ev0 (c : Coord) (v : Bool) : (xwrite c v s).ev0 = s.ev0 := rfl
@[simp] theorem xwrite_ev1 (c : Coord) (v : Bool) : (xwrite c v s).ev1 = s.ev1 := rfl
@[simp] theorem xwrite_evRaw (c : Coord) (v : Bool) : (xwrite c v s).evRaw = s.evRaw := rfl
@[simp] theorem xwrite_lookupRes (c : Coord) (v : Bool) : (xwrite c v s).lookupRes = s.lookupRes := rfl
@[simp] theorem xwrite_timing (c : Coord) (v : Bool) : (xwrite c v s).timing = s.timing := rfl
@[simp] theorem xwrite_mem (c : Coord) (v : Bool) : (xwrite c v s).mem = s.mem := rfl
@[simp] theorem xwrite_caps (c : Coord) (v : Bool) : (xwrite c v s).caps = s.caps := rfl
@[simp] theorem xwrite_lheld (c : Coord) (v : Bool) : (xwrite c v s).lheld = s.lheld := rfl
@[simp] theorem xwrite_rheld (c : Coord) (v : Bool) : (xwrite c v s).rheld = s.rheld := rfl
@[simp] theorem xwrite_restore (c : Coord) (v : Bool) : (xwrite c v s).restore = s.restore := rfl
@[simp] theorem xwrite_matrix (c : Coord) (v : Bool) : (xwrite c v s).matrix = setCross s.matrix c v := rfl
@[simp] theorem xwrite_work (c : Coord) (v : Bool) : (xwrite c v s).work = s.work := rfl
@[simp] theorem xwrite_job (c : Coord) (v : Bool) : (xwrite c v s).job = s.job := rfl
@[simp] theorem xwrite_pins (c : Coord) (v : Bool) : (xwrite c v s).pins = settle s.params s.pins (.xwrite c v) := rfl
@[simp] theorem xwrite_trace (c : Coord) (v : Bool) : (xwrite c v s).trace = s.trace ++ [.xwrite c v] := rfl
@[simp] theorem xwrite_hold (c : Coord) (v : Bool) : (xwrite c v s).hold = s.hold := rfl
@[simp] theorem xwrite_draws (c : Coord) (v : Bool) : (xwrite c v s).draws = s.draws := rfl
@[simp] theorem xwrite_program (c : Coord) (v : Bool) : (xwrite c v s).program = s.program := rfl
@[simp] theorem xwrite_reads (c : Coord) (v : Bool) : (xwrite c v s).reads = s.reads := rfl

/-! ### writeEvent -/

@[simp] theorem writeEvent_params (a b c : Word) : (writeEvent a b c s).params = s.params := rfl
@[simp] theorem writeEvent_ctrl (a b c : Word) : (writeEvent a b c s).ctrl = s.ctrl := rfl
@[simp] theorem writeEvent_status (a b c : Word) : (writeEvent a b c s).status = s.status := rfl
@[simp] theorem writeEvent_irqEn (a b c : Word) : (writeEvent a b c s).irqEn = s.irqEn := rfl
@[simp] theorem writeEvent_err (a b c : Word) : (writeEvent a b c s).err = s.err := rfl
@[simp] theorem writeEvent_pbCount (a b c : Word) : (writeEvent a b c s).pbCount = s.pbCount := rfl
@[simp] theorem writeEvent_diag (a b c : Word) : (writeEvent a b c s).diag = s.diag := rfl
@[simp] theorem writeEvent_ev0 (a b c : Word) : (writeEvent a b c s).ev0 = a := rfl
@[simp] theorem writeEvent_ev1 (a b c : Word) : (writeEvent a b c s).ev1 = b := rfl
@[simp] theorem writeEvent_evRaw (a b c : Word) : (writeEvent a b c s).evRaw = c := rfl
@[simp] theorem writeEvent_lookupRes (a b c : Word) : (writeEvent a b c s).lookupRes = s.lookupRes := rfl
@[simp] theorem writeEvent_timing (a b c : Word) : (writeEvent a b c s).timing = s.timing := rfl
@[simp] theorem writeEvent_mem (a b c : Word) : (writeEvent a b c s).mem = s.mem := rfl
@[simp] theorem writeEvent_caps (a b c : Word) : (writeEvent a b c s).caps = s.caps := rfl
@[simp] theorem writeEvent_lheld (a b c : Word) : (writeEvent a b c s).lheld = s.lheld := rfl
@[simp] theorem writeEvent_rheld (a b c : Word) : (writeEvent a b c s).rheld = s.rheld := rfl
@[simp] theorem writeEvent_restore (a b c : Word) : (writeEvent a b c s).restore = s.restore := rfl
@[simp] theorem writeEvent_matrix (a b c : Word) : (writeEvent a b c s).matrix = s.matrix := rfl
@[simp] theorem writeEvent_work (a b c : Word) : (writeEvent a b c s).work = s.work := rfl
@[simp] theorem writeEvent_job (a b c : Word) : (writeEvent a b c s).job = s.job := rfl
@[simp] theorem writeEvent_pins (a b c : Word) : (writeEvent a b c s).pins = s.pins := rfl
@[simp] theorem writeEvent_trace (a b c : Word) : (writeEvent a b c s).trace = s.trace := rfl
@[simp] theorem writeEvent_hold (a b c : Word) : (writeEvent a b c s).hold = s.hold := rfl
@[simp] theorem writeEvent_draws (a b c : Word) : (writeEvent a b c s).draws = s.draws := rfl
@[simp] theorem writeEvent_program (a b c : Word) : (writeEvent a b c s).program = s.program := rfl
@[simp] theorem writeEvent_reads (a b c : Word) : (writeEvent a b c s).reads = s.reads := rfl

/-! ### writeDiag -/

@[simp] theorem writeDiag_params (w : Word) : (writeDiag w s).params = s.params := rfl
@[simp] theorem writeDiag_ctrl (w : Word) : (writeDiag w s).ctrl = s.ctrl := rfl
@[simp] theorem writeDiag_status (w : Word) : (writeDiag w s).status = s.status := rfl
@[simp] theorem writeDiag_irqEn (w : Word) : (writeDiag w s).irqEn = s.irqEn := rfl
@[simp] theorem writeDiag_err (w : Word) : (writeDiag w s).err = s.err := rfl
@[simp] theorem writeDiag_pbCount (w : Word) : (writeDiag w s).pbCount = s.pbCount := rfl
@[simp] theorem writeDiag_diag (w : Word) : (writeDiag w s).diag = w := rfl
@[simp] theorem writeDiag_ev0 (w : Word) : (writeDiag w s).ev0 = s.ev0 := rfl
@[simp] theorem writeDiag_ev1 (w : Word) : (writeDiag w s).ev1 = s.ev1 := rfl
@[simp] theorem writeDiag_evRaw (w : Word) : (writeDiag w s).evRaw = s.evRaw := rfl
@[simp] theorem writeDiag_lookupRes (w : Word) : (writeDiag w s).lookupRes = s.lookupRes := rfl
@[simp] theorem writeDiag_timing (w : Word) : (writeDiag w s).timing = s.timing := rfl
@[simp] theorem writeDiag_mem (w : Word) : (writeDiag w s).mem = s.mem := rfl
@[simp] theorem writeDiag_caps (w : Word) : (writeDiag w s).caps = s.caps := rfl
@[simp] theorem writeDiag_lheld (w : Word) : (writeDiag w s).lheld = s.lheld := rfl
@[simp] theorem writeDiag_rheld (w : Word) : (writeDiag w s).rheld = s.rheld := rfl
@[simp] theorem writeDiag_restore (w : Word) : (writeDiag w s).restore = s.restore := rfl
@[simp] theorem writeDiag_matrix (w : Word) : (writeDiag w s).matrix = s.matrix := rfl
@[simp] theorem writeDiag_work (w : Word) : (writeDiag w s).work = s.work := rfl
@[simp] theorem writeDiag_job (w : Word) : (writeDiag w s).job = s.job := rfl
@[simp] theorem writeDiag_pins (w : Word) : (writeDiag w s).pins = s.pins := rfl
@[simp] theorem writeDiag_trace (w : Word) : (writeDiag w s).trace = s.trace := rfl
@[simp] theorem writeDiag_hold (w : Word) : (writeDiag w s).hold = s.hold := rfl
@[simp] theorem writeDiag_draws (w : Word) : (writeDiag w s).draws = s.draws := rfl
@[simp] theorem writeDiag_program (w : Word) : (writeDiag w s).program = s.program := rfl
@[simp] theorem writeDiag_reads (w : Word) : (writeDiag w s).reads = s.reads := rfl

/-! ### writeLookupRes -/

@[simp] theorem writeLookupRes_params (w : Word) : (writeLookupRes w s).params = s.params := rfl
@[simp] theorem writeLookupRes_ctrl (w : Word) : (writeLookupRes w s).ctrl = s.ctrl := rfl
@[simp] theorem writeLookupRes_status (w : Word) : (writeLookupRes w s).status = s.status := rfl
@[simp] theorem writeLookupRes_irqEn (w : Word) : (writeLookupRes w s).irqEn = s.irqEn := rfl
@[simp] theorem writeLookupRes_err (w : Word) : (writeLookupRes w s).err = s.err := rfl
@[simp] theorem writeLookupRes_pbCount (w : Word) : (writeLookupRes w s).pbCount = s.pbCount := rfl
@[simp] theorem writeLookupRes_diag (w : Word) : (writeLookupRes w s).diag = s.diag := rfl
@[simp] theorem writeLookupRes_ev0 (w : Word) : (writeLookupRes w s).ev0 = s.ev0 := rfl
@[simp] theorem writeLookupRes_ev1 (w : Word) : (writeLookupRes w s).ev1 = s.ev1 := rfl
@[simp] theorem writeLookupRes_evRaw (w : Word) : (writeLookupRes w s).evRaw = s.evRaw := rfl
@[simp] theorem writeLookupRes_lookupRes (w : Word) : (writeLookupRes w s).lookupRes = w := rfl
@[simp] theorem writeLookupRes_timing (w : Word) : (writeLookupRes w s).timing = s.timing := rfl
@[simp] theorem writeLookupRes_mem (w : Word) : (writeLookupRes w s).mem = s.mem := rfl
@[simp] theorem writeLookupRes_caps (w : Word) : (writeLookupRes w s).caps = s.caps := rfl
@[simp] theorem writeLookupRes_lheld (w : Word) : (writeLookupRes w s).lheld = s.lheld := rfl
@[simp] theorem writeLookupRes_rheld (w : Word) : (writeLookupRes w s).rheld = s.rheld := rfl
@[simp] theorem writeLookupRes_restore (w : Word) : (writeLookupRes w s).restore = s.restore := rfl
@[simp] theorem writeLookupRes_matrix (w : Word) : (writeLookupRes w s).matrix = s.matrix := rfl
@[simp] theorem writeLookupRes_work (w : Word) : (writeLookupRes w s).work = s.work := rfl
@[simp] theorem writeLookupRes_job (w : Word) : (writeLookupRes w s).job = s.job := rfl
@[simp] theorem writeLookupRes_pins (w : Word) : (writeLookupRes w s).pins = s.pins := rfl
@[simp] theorem writeLookupRes_trace (w : Word) : (writeLookupRes w s).trace = s.trace := rfl
@[simp] theorem writeLookupRes_hold (w : Word) : (writeLookupRes w s).hold = s.hold := rfl
@[simp] theorem writeLookupRes_draws (w : Word) : (writeLookupRes w s).draws = s.draws := rfl
@[simp] theorem writeLookupRes_program (w : Word) : (writeLookupRes w s).program = s.program := rfl
@[simp] theorem writeLookupRes_reads (w : Word) : (writeLookupRes w s).reads = s.reads := rfl

/-! ### setWork -/

@[simp] theorem setWork_params (w : Work) : (setWork w s).params = s.params := rfl
@[simp] theorem setWork_ctrl (w : Work) : (setWork w s).ctrl = s.ctrl := rfl
@[simp] theorem setWork_status (w : Work) : (setWork w s).status = s.status := rfl
@[simp] theorem setWork_irqEn (w : Work) : (setWork w s).irqEn = s.irqEn := rfl
@[simp] theorem setWork_err (w : Work) : (setWork w s).err = s.err := rfl
@[simp] theorem setWork_pbCount (w : Work) : (setWork w s).pbCount = s.pbCount := rfl
@[simp] theorem setWork_diag (w : Work) : (setWork w s).diag = s.diag := rfl
@[simp] theorem setWork_ev0 (w : Work) : (setWork w s).ev0 = s.ev0 := rfl
@[simp] theorem setWork_ev1 (w : Work) : (setWork w s).ev1 = s.ev1 := rfl
@[simp] theorem setWork_evRaw (w : Work) : (setWork w s).evRaw = s.evRaw := rfl
@[simp] theorem setWork_lookupRes (w : Work) : (setWork w s).lookupRes = s.lookupRes := rfl
@[simp] theorem setWork_timing (w : Work) : (setWork w s).timing = s.timing := rfl
@[simp] theorem setWork_mem (w : Work) : (setWork w s).mem = s.mem := rfl
@[simp] theorem setWork_caps (w : Work) : (setWork w s).caps = s.caps := rfl
@[simp] theorem setWork_lheld (w : Work) : (setWork w s).lheld = s.lheld := rfl
@[simp] theorem setWork_rheld (w : Work) : (setWork w s).rheld = s.rheld := rfl
@[simp] theorem setWork_restore (w : Work) : (setWork w s).restore = s.restore := rfl
@[simp] theorem setWork_matrix (w : Work) : (setWork w s).matrix = s.matrix := rfl
@[simp] theorem setWork_work (w : Work) : (setWork w s).work = w := rfl
@[simp] theorem setWork_job (w : Work) : (setWork w s).job = s.job := rfl
@[simp] theorem setWork_pins (w : Work) : (setWork w s).pins = s.pins := rfl
@[simp] theorem setWork_trace (w : Work) : (setWork w s).trace = s.trace := rfl
@[simp] theorem setWork_hold (w : Work) : (setWork w s).hold = s.hold := rfl
@[simp] theorem setWork_draws (w : Work) : (setWork w s).draws = s.draws := rfl
@[simp] theorem setWork_program (w : Work) : (setWork w s).program = s.program := rfl
@[simp] theorem setWork_reads (w : Work) : (setWork w s).reads = s.reads := rfl

/-! ### dropFrame -/

@[simp] theorem dropFrame_params : (dropFrame s).params = s.params := rfl
@[simp] theorem dropFrame_ctrl : (dropFrame s).ctrl = s.ctrl := rfl
@[simp] theorem dropFrame_status : (dropFrame s).status = { s.status with frameReady := false } := rfl
@[simp] theorem dropFrame_irqEn : (dropFrame s).irqEn = s.irqEn := rfl
@[simp] theorem dropFrame_err : (dropFrame s).err = s.err := rfl
@[simp] theorem dropFrame_pbCount : (dropFrame s).pbCount = s.pbCount := rfl
@[simp] theorem dropFrame_diag : (dropFrame s).diag = s.diag := rfl
@[simp] theorem dropFrame_ev0 : (dropFrame s).ev0 = s.ev0 := rfl
@[simp] theorem dropFrame_ev1 : (dropFrame s).ev1 = s.ev1 := rfl
@[simp] theorem dropFrame_evRaw : (dropFrame s).evRaw = s.evRaw := rfl
@[simp] theorem dropFrame_lookupRes : (dropFrame s).lookupRes = s.lookupRes := rfl
@[simp] theorem dropFrame_timing : (dropFrame s).timing = s.timing := rfl
@[simp] theorem dropFrame_mem : (dropFrame s).mem = s.mem := rfl
@[simp] theorem dropFrame_caps : (dropFrame s).caps = s.caps := rfl
@[simp] theorem dropFrame_lheld : (dropFrame s).lheld = s.lheld := rfl
@[simp] theorem dropFrame_rheld : (dropFrame s).rheld = s.rheld := rfl
@[simp] theorem dropFrame_restore : (dropFrame s).restore = s.restore := rfl
@[simp] theorem dropFrame_matrix : (dropFrame s).matrix = s.matrix := rfl
@[simp] theorem dropFrame_work : (dropFrame s).work = s.work := rfl
@[simp] theorem dropFrame_job : (dropFrame s).job = s.job := rfl
@[simp] theorem dropFrame_pins : (dropFrame s).pins = settle s.params s.pins .rearm := rfl
@[simp] theorem dropFrame_trace : (dropFrame s).trace = s.trace ++ [.rearm] := rfl
@[simp] theorem dropFrame_hold : (dropFrame s).hold = s.hold := rfl
@[simp] theorem dropFrame_draws : (dropFrame s).draws = s.draws := rfl
@[simp] theorem dropFrame_program : (dropFrame s).program = s.program := rfl
@[simp] theorem dropFrame_reads : (dropFrame s).reads = s.reads := rfl

/-! ### markEvent -/

@[simp] theorem markEvent_params : (markEvent s).params = s.params := rfl
@[simp] theorem markEvent_ctrl : (markEvent s).ctrl = s.ctrl := rfl
@[simp] theorem markEvent_status : (markEvent s).status = { s.status with evNew := true } := rfl
@[simp] theorem markEvent_irqEn : (markEvent s).irqEn = s.irqEn := rfl
@[simp] theorem markEvent_err : (markEvent s).err = s.err := rfl
@[simp] theorem markEvent_pbCount : (markEvent s).pbCount = s.pbCount := rfl
@[simp] theorem markEvent_diag : (markEvent s).diag = s.diag := rfl
@[simp] theorem markEvent_ev0 : (markEvent s).ev0 = s.ev0 := rfl
@[simp] theorem markEvent_ev1 : (markEvent s).ev1 = s.ev1 := rfl
@[simp] theorem markEvent_evRaw : (markEvent s).evRaw = s.evRaw := rfl
@[simp] theorem markEvent_lookupRes : (markEvent s).lookupRes = s.lookupRes := rfl
@[simp] theorem markEvent_timing : (markEvent s).timing = s.timing := rfl
@[simp] theorem markEvent_mem : (markEvent s).mem = s.mem := rfl
@[simp] theorem markEvent_caps : (markEvent s).caps = s.caps := rfl
@[simp] theorem markEvent_lheld : (markEvent s).lheld = s.lheld := rfl
@[simp] theorem markEvent_rheld : (markEvent s).rheld = s.rheld := rfl
@[simp] theorem markEvent_restore : (markEvent s).restore = s.restore := rfl
@[simp] theorem markEvent_matrix : (markEvent s).matrix = s.matrix := rfl
@[simp] theorem markEvent_work : (markEvent s).work = s.work := rfl
@[simp] theorem markEvent_job : (markEvent s).job = s.job := rfl
@[simp] theorem markEvent_pins : (markEvent s).pins = s.pins := rfl
@[simp] theorem markEvent_trace : (markEvent s).trace = s.trace := rfl
@[simp] theorem markEvent_hold : (markEvent s).hold = s.hold := rfl
@[simp] theorem markEvent_draws : (markEvent s).draws = s.draws := rfl
@[simp] theorem markEvent_program : (markEvent s).program = s.program := rfl
@[simp] theorem markEvent_reads : (markEvent s).reads = s.reads := rfl

/-! ### drawSchedule -/

@[simp] theorem drawSchedule_params : (drawSchedule s).params = s.params := rfl
@[simp] theorem drawSchedule_ctrl : (drawSchedule s).ctrl = s.ctrl := rfl
@[simp] theorem drawSchedule_status : (drawSchedule s).status = s.status := rfl
@[simp] theorem drawSchedule_irqEn : (drawSchedule s).irqEn = s.irqEn := rfl
@[simp] theorem drawSchedule_err : (drawSchedule s).err = s.err := rfl
@[simp] theorem drawSchedule_pbCount : (drawSchedule s).pbCount = s.pbCount := rfl
@[simp] theorem drawSchedule_diag : (drawSchedule s).diag = s.diag := rfl
@[simp] theorem drawSchedule_ev0 : (drawSchedule s).ev0 = s.ev0 := rfl
@[simp] theorem drawSchedule_ev1 : (drawSchedule s).ev1 = s.ev1 := rfl
@[simp] theorem drawSchedule_evRaw : (drawSchedule s).evRaw = s.evRaw := rfl
@[simp] theorem drawSchedule_lookupRes : (drawSchedule s).lookupRes = s.lookupRes := rfl
@[simp] theorem drawSchedule_timing : (drawSchedule s).timing = s.timing := rfl
@[simp] theorem drawSchedule_mem : (drawSchedule s).mem = s.mem := rfl
@[simp] theorem drawSchedule_caps : (drawSchedule s).caps = s.caps := rfl
@[simp] theorem drawSchedule_lheld : (drawSchedule s).lheld = s.lheld := rfl
@[simp] theorem drawSchedule_rheld : (drawSchedule s).rheld = s.rheld := rfl
@[simp] theorem drawSchedule_restore : (drawSchedule s).restore = s.restore := rfl
@[simp] theorem drawSchedule_matrix : (drawSchedule s).matrix = s.matrix := rfl
@[simp] theorem drawSchedule_work : (drawSchedule s).work = s.work := rfl
@[simp] theorem drawSchedule_job : (drawSchedule s).job = s.job := rfl
@[simp] theorem drawSchedule_pins : (drawSchedule s).pins = s.pins := rfl
@[simp] theorem drawSchedule_trace : (drawSchedule s).trace = s.trace := rfl
@[simp] theorem drawSchedule_hold : (drawSchedule s).hold = Config.accessesBeforeExecute s.draws := rfl
@[simp] theorem drawSchedule_draws : (drawSchedule s).draws = s.draws + 1 := rfl
@[simp] theorem drawSchedule_program : (drawSchedule s).program = s.program := rfl
@[simp] theorem drawSchedule_reads : (drawSchedule s).reads = s.reads := rfl

/-! ### acceptCommand -/

@[simp] theorem acceptCommand_params (v : Word) : (acceptCommand v s).params = s.params := rfl
@[simp] theorem acceptCommand_ctrl (v : Word) : (acceptCommand v s).ctrl = s.ctrl := rfl
@[simp] theorem acceptCommand_status (v : Word) : (acceptCommand v s).status = { s.status with busy := true } := rfl
@[simp] theorem acceptCommand_irqEn (v : Word) : (acceptCommand v s).irqEn = s.irqEn := rfl
@[simp] theorem acceptCommand_err (v : Word) : (acceptCommand v s).err = s.err := rfl
@[simp] theorem acceptCommand_pbCount (v : Word) : (acceptCommand v s).pbCount = s.pbCount := rfl
@[simp] theorem acceptCommand_diag (v : Word) : (acceptCommand v s).diag = s.diag := rfl
@[simp] theorem acceptCommand_ev0 (v : Word) : (acceptCommand v s).ev0 = s.ev0 := rfl
@[simp] theorem acceptCommand_ev1 (v : Word) : (acceptCommand v s).ev1 = s.ev1 := rfl
@[simp] theorem acceptCommand_evRaw (v : Word) : (acceptCommand v s).evRaw = s.evRaw := rfl
@[simp] theorem acceptCommand_lookupRes (v : Word) : (acceptCommand v s).lookupRes = s.lookupRes := rfl
@[simp] theorem acceptCommand_timing (v : Word) : (acceptCommand v s).timing = s.timing := rfl
@[simp] theorem acceptCommand_mem (v : Word) : (acceptCommand v s).mem = s.mem := rfl
@[simp] theorem acceptCommand_caps (v : Word) : (acceptCommand v s).caps = s.caps := rfl
@[simp] theorem acceptCommand_lheld (v : Word) : (acceptCommand v s).lheld = s.lheld := rfl
@[simp] theorem acceptCommand_rheld (v : Word) : (acceptCommand v s).rheld = s.rheld := rfl
@[simp] theorem acceptCommand_restore (v : Word) : (acceptCommand v s).restore = s.restore := rfl
@[simp] theorem acceptCommand_matrix (v : Word) : (acceptCommand v s).matrix = s.matrix := rfl
@[simp] theorem acceptCommand_work (v : Word) : (acceptCommand v s).work = s.work := rfl
@[simp] theorem acceptCommand_job (v : Word) : (acceptCommand v s).job = some (.command v) := rfl
@[simp] theorem acceptCommand_pins (v : Word) : (acceptCommand v s).pins = s.pins := rfl
@[simp] theorem acceptCommand_trace (v : Word) : (acceptCommand v s).trace = s.trace := rfl
@[simp] theorem acceptCommand_hold (v : Word) : (acceptCommand v s).hold = Config.accessesBeforeExecute s.draws := rfl
@[simp] theorem acceptCommand_draws (v : Word) : (acceptCommand v s).draws = s.draws + 1 := rfl
@[simp] theorem acceptCommand_program (v : Word) : (acceptCommand v s).program = s.program := rfl
@[simp] theorem acceptCommand_reads (v : Word) : (acceptCommand v s).reads = s.reads := rfl

/-! ### completeCommand -/

@[simp] theorem completeCommand_params : (completeCommand s).params = s.params := rfl
@[simp] theorem completeCommand_ctrl : (completeCommand s).ctrl = s.ctrl := rfl
@[simp] theorem completeCommand_status : (completeCommand s).status = statusComplete s.status := rfl
@[simp] theorem completeCommand_irqEn : (completeCommand s).irqEn = s.irqEn := rfl
@[simp] theorem completeCommand_err : (completeCommand s).err = s.err := rfl
@[simp] theorem completeCommand_pbCount : (completeCommand s).pbCount = s.pbCount := rfl
@[simp] theorem completeCommand_diag : (completeCommand s).diag = s.diag := rfl
@[simp] theorem completeCommand_ev0 : (completeCommand s).ev0 = s.ev0 := rfl
@[simp] theorem completeCommand_ev1 : (completeCommand s).ev1 = s.ev1 := rfl
@[simp] theorem completeCommand_evRaw : (completeCommand s).evRaw = s.evRaw := rfl
@[simp] theorem completeCommand_lookupRes : (completeCommand s).lookupRes = s.lookupRes := rfl
@[simp] theorem completeCommand_timing : (completeCommand s).timing = s.timing := rfl
@[simp] theorem completeCommand_mem : (completeCommand s).mem = s.mem := rfl
@[simp] theorem completeCommand_caps : (completeCommand s).caps = s.caps := rfl
@[simp] theorem completeCommand_lheld : (completeCommand s).lheld = s.lheld := rfl
@[simp] theorem completeCommand_rheld : (completeCommand s).rheld = s.rheld := rfl
@[simp] theorem completeCommand_restore : (completeCommand s).restore = s.restore := rfl
@[simp] theorem completeCommand_matrix : (completeCommand s).matrix = s.matrix := rfl
@[simp] theorem completeCommand_work : (completeCommand s).work = s.work := rfl
@[simp] theorem completeCommand_job : (completeCommand s).job = none := rfl
@[simp] theorem completeCommand_pins : (completeCommand s).pins = s.pins := rfl
@[simp] theorem completeCommand_trace : (completeCommand s).trace = s.trace := rfl
@[simp] theorem completeCommand_hold : (completeCommand s).hold = 0 := rfl
@[simp] theorem completeCommand_draws : (completeCommand s).draws = s.draws := rfl
@[simp] theorem completeCommand_program : (completeCommand s).program = s.program := rfl
@[simp] theorem completeCommand_reads : (completeCommand s).reads = s.reads := rfl

/-! ### spendAccess -/

@[simp] theorem spendAccess_params : (spendAccess s).params = s.params := rfl
@[simp] theorem spendAccess_ctrl : (spendAccess s).ctrl = s.ctrl := rfl
@[simp] theorem spendAccess_status : (spendAccess s).status = s.status := rfl
@[simp] theorem spendAccess_irqEn : (spendAccess s).irqEn = s.irqEn := rfl
@[simp] theorem spendAccess_err : (spendAccess s).err = s.err := rfl
@[simp] theorem spendAccess_pbCount : (spendAccess s).pbCount = s.pbCount := rfl
@[simp] theorem spendAccess_diag : (spendAccess s).diag = s.diag := rfl
@[simp] theorem spendAccess_ev0 : (spendAccess s).ev0 = s.ev0 := rfl
@[simp] theorem spendAccess_ev1 : (spendAccess s).ev1 = s.ev1 := rfl
@[simp] theorem spendAccess_evRaw : (spendAccess s).evRaw = s.evRaw := rfl
@[simp] theorem spendAccess_lookupRes : (spendAccess s).lookupRes = s.lookupRes := rfl
@[simp] theorem spendAccess_timing : (spendAccess s).timing = s.timing := rfl
@[simp] theorem spendAccess_mem : (spendAccess s).mem = s.mem := rfl
@[simp] theorem spendAccess_caps : (spendAccess s).caps = s.caps := rfl
@[simp] theorem spendAccess_lheld : (spendAccess s).lheld = s.lheld := rfl
@[simp] theorem spendAccess_rheld : (spendAccess s).rheld = s.rheld := rfl
@[simp] theorem spendAccess_restore : (spendAccess s).restore = s.restore := rfl
@[simp] theorem spendAccess_matrix : (spendAccess s).matrix = s.matrix := rfl
@[simp] theorem spendAccess_work : (spendAccess s).work = s.work := rfl
@[simp] theorem spendAccess_job : (spendAccess s).job = s.job := rfl
@[simp] theorem spendAccess_pins : (spendAccess s).pins = s.pins := rfl
@[simp] theorem spendAccess_trace : (spendAccess s).trace = s.trace := rfl
@[simp] theorem spendAccess_hold : (spendAccess s).hold = s.hold - 1 := rfl
@[simp] theorem spendAccess_draws : (spendAccess s).draws = s.draws := rfl
@[simp] theorem spendAccess_program : (spendAccess s).program = s.program := rfl
@[simp] theorem spendAccess_reads : (spendAccess s).reads = s.reads := rfl

/-! ### placeCommand -/

@[simp] theorem placeCommand_params (v : Word) : (placeCommand v s).params = s.params := rfl
@[simp] theorem placeCommand_ctrl (v : Word) : (placeCommand v s).ctrl = s.ctrl := rfl
@[simp] theorem placeCommand_status (v : Word) : (placeCommand v s).status = { s.status with busy := true } := rfl
@[simp] theorem placeCommand_irqEn (v : Word) : (placeCommand v s).irqEn = s.irqEn := rfl
@[simp] theorem placeCommand_err (v : Word) : (placeCommand v s).err = s.err := rfl
@[simp] theorem placeCommand_pbCount (v : Word) : (placeCommand v s).pbCount = s.pbCount := rfl
@[simp] theorem placeCommand_diag (v : Word) : (placeCommand v s).diag = s.diag := rfl
@[simp] theorem placeCommand_ev0 (v : Word) : (placeCommand v s).ev0 = s.ev0 := rfl
@[simp] theorem placeCommand_ev1 (v : Word) : (placeCommand v s).ev1 = s.ev1 := rfl
@[simp] theorem placeCommand_evRaw (v : Word) : (placeCommand v s).evRaw = s.evRaw := rfl
@[simp] theorem placeCommand_lookupRes (v : Word) : (placeCommand v s).lookupRes = s.lookupRes := rfl
@[simp] theorem placeCommand_timing (v : Word) : (placeCommand v s).timing = s.timing := rfl
@[simp] theorem placeCommand_mem (v : Word) : (placeCommand v s).mem = s.mem := rfl
@[simp] theorem placeCommand_caps (v : Word) : (placeCommand v s).caps = s.caps := rfl
@[simp] theorem placeCommand_lheld (v : Word) : (placeCommand v s).lheld = s.lheld := rfl
@[simp] theorem placeCommand_rheld (v : Word) : (placeCommand v s).rheld = s.rheld := rfl
@[simp] theorem placeCommand_restore (v : Word) : (placeCommand v s).restore = s.restore := rfl
@[simp] theorem placeCommand_matrix (v : Word) : (placeCommand v s).matrix = s.matrix := rfl
@[simp] theorem placeCommand_work (v : Word) : (placeCommand v s).work = s.work := rfl
@[simp] theorem placeCommand_job (v : Word) : (placeCommand v s).job = some (.command v) := rfl
@[simp] theorem placeCommand_pins (v : Word) : (placeCommand v s).pins = s.pins := rfl
@[simp] theorem placeCommand_trace (v : Word) : (placeCommand v s).trace = s.trace := rfl
@[simp] theorem placeCommand_hold (v : Word) : (placeCommand v s).hold = 0 := rfl
@[simp] theorem placeCommand_draws (v : Word) : (placeCommand v s).draws = s.draws := rfl
@[simp] theorem placeCommand_program (v : Word) : (placeCommand v s).program = s.program := rfl
@[simp] theorem placeCommand_reads (v : Word) : (placeCommand v s).reads = s.reads := rfl

end Sys2Proof.Machine
end

