-- ==== Sys2Proof/Laws/Ops.lean ====
section
/-! SUPPORT. For each shared operation, what it does, said once. -/

namespace Sys2Proof.Machine

/-! ### Pins -/

/-- The levels the pins keep after a crosspoint write (43_matrix.md R210). -/
@[simp] theorem settle_xwrite (prm : Params) (p : Pins) (c : Coord) (v : Bool) :
    settle prm p (.xwrite c v) =
      { p with rowSel := c.extractLsb' 3 3, colSel := c.extractLsb' 0 3, data := v, strobe := false } := rfl

@[simp] theorem settle_xreset (prm : Params) (p : Pins) :
    settle prm p .xreset = { p with xrst := false, strobe := false } := rfl

@[simp] theorem settle_restore (prm : Params) (p : Pins) (l : RestoreLevel) :
    settle prm p (.restore l) = { p with restoreOe := decide (l = .low) } := by
  cases l <;> rfl

@[simp] theorem settle_rearm (prm : Params) (p : Pins) : settle prm p .rearm = { p with rearm := false } := rfl

/-! ### Crosspoints -/

/-- M[c'] after M[c] <- v. -/
theorem crossAt_setCross (m : BitVec 64) (c c' : Coord) (v : Bool) :
    crossAt (setCross m c v) c' = if c' = c then v else crossAt m c' := by
  have hc := c.isLt
  have hc' := c'.isLt
  have hsub : (decide (c'.toNat - c.toNat = 0) && !decide (c'.toNat < c.toNat)) = decide (c' = c) := by
    rw [Bool.eq_iff_iff]
    simp only [Bool.and_eq_true, Bool.not_eq_true', decide_eq_true_eq, decide_eq_false_iff_not, ← BitVec.toNat_inj]
    omega
  unfold crossAt setCross
  cases v
  · simp only [Bool.false_eq_true, if_false, BitVec.getLsbD_and, BitVec.getLsbD_not, BitVec.getLsbD_shiftLeft,
      BitVec.getLsbD_one]
    by_cases h : c' = c
    · subst h
      simp [show c'.toNat < 64 by omega]
    · have : c'.toNat ≠ c.toNat := fun e => h (BitVec.eq_of_toNat_eq e)
      have hb : (decide (c'.toNat - c.toNat = 0) && !decide (c'.toNat < c.toNat)) = false := by rw [hsub]; simp [h]
      simp only [show c'.toNat < 64 by omega, h]
      cases hd : decide (c'.toNat - c.toNat = 0) <;> simp_all
  · simp only [if_true, BitVec.getLsbD_or, BitVec.getLsbD_shiftLeft, BitVec.getLsbD_one]
    by_cases h : c' = c
    · subst h
      simp [show c'.toNat < 64 by omega]
    · have hb : (decide (c'.toNat - c.toNat = 0) && !decide (c'.toNat < c.toNat)) = false := by rw [hsub]; simp [h]
      simp only [h]
      cases hd : decide (c'.toNat - c.toNat = 0) <;> simp_all

@[simp] theorem crossAt_setCross_self (m : BitVec 64) (c : Coord) (v : Bool) : crossAt (setCross m c v) c = v := by
  simp [crossAt_setCross]

theorem crossAt_setCross_ne (m : BitVec 64) (c c' : Coord) (v : Bool) (h : c' ≠ c) :
    crossAt (setCross m c v) c' = crossAt m c' := by
  simp [crossAt_setCross, h]

@[simp] theorem crossAt_zero (c : Coord) : crossAt 0#64 c = false := by simp [crossAt]

/-- Two matrices with the same 64 crosspoints are equal. -/
theorem matrix_ext (m m' : BitVec 64) (h : ∀ c, crossAt m c = crossAt m' c) : m = m' := by
  apply BitVec.eq_of_getLsbD_eq
  intro i hi
  have := h (BitVec.ofNat 6 i)
  simpa [crossAt, Nat.mod_eq_of_lt hi] using this

/-- A crosspoint written twice: the second value stands. -/
@[simp] theorem setCross_setCross (m : BitVec 64) (c : Coord) (v w : Bool) :
    setCross (setCross m c v) c w = setCross m c w := by
  apply matrix_ext
  intro x
  simp only [crossAt_setCross]
  split <;> rfl

/-! ### INIT_STATE -/

/-- A run of crosspoint clears in closed form: the matrix, the trace, and the pins of the last write. -/
theorem foldl_xwrite_false (l : List Nat) (s : State) :
    l.foldl (fun t c => xwrite (BitVec.ofNat 6 c) false t) s =
      { s with
        matrix := l.foldl (fun m c => setCross m (BitVec.ofNat 6 c) false) s.matrix
        trace := s.trace ++ l.map (fun c => .xwrite (BitVec.ofNat 6 c) false)
        pins := (l.map fun c => PinEvent.xwrite (BitVec.ofNat 6 c) false).foldl (settle s.params) s.pins } := by
  induction l generalizing s with
  | nil => simp
  | cons c l ih =>
    rw [List.foldl_cons, ih]
    simp [xwrite, emit]

theorem crossAt_foldl_clear (l : List Nat) (m : BitVec 64) (c : Coord) :
    crossAt (l.foldl (fun m c => setCross m (BitVec.ofNat 6 c) false) m) c =
      (crossAt m c && decide (c ∉ l.map (BitVec.ofNat 6))) := by
  induction l generalizing m with
  | nil => simp
  | cons k l ih =>
    rw [List.foldl_cons, ih, crossAt_setCross]
    by_cases h : c = BitVec.ofNat 6 k <;> simp [h]

/-- The 64 clears open every crosspoint. -/
theorem clear_all (m : BitVec 64) :
    (List.range 64).foldl (fun m c => setCross m (BitVec.ofNat 6 c) false) m = 0#64 := by
  apply matrix_ext
  intro c
  rw [crossAt_foldl_clear, crossAt_zero]
  have : c ∈ (List.range 64).map (BitVec.ofNat 6) :=
    List.mem_map.2 ⟨c.toNat, List.mem_range.2 c.isLt, by simp⟩
  simp [this]

theorem settle_clears (prm : Params) (p : Pins) :
    ((List.range 64).map fun c => PinEvent.xwrite (BitVec.ofNat 6 c) false).foldl (settle prm) p =
      { p with rowSel := 7#3, colSel := 7#3, data := false, strobe := false } := by
  rfl

/-- INIT_STATE() in closed form (43_matrix.md R219). -/
theorem initState_eq (s : State) :
    initState s =
      { s with
        matrix := 0#64, caps := false, lheld := false, rheld := false, restore := false
        trace := s.trace ++ initTrace
        pins := { s.pins with
          rowSel := 7#3, colSel := 7#3, data := false, strobe := false, xrst := false, restoreOe := false } } := by
  unfold initState clearCrosspoints
  rw [foldl_xwrite_false]
  simp only [emit, clear_all, settle_clears, settle_restore, settle_xreset, initTrace]
  simp

/-! ### INV_CHECK -/

/-- INV_CHECK() does nothing where the left-shift invariant holds (43_matrix.md R227, R228). -/
theorem invCheck_of_leftShift (op : BitVec 4) (s : State) (h : LeftShiftHolds s) : invCheck op s = s := if_pos h

/-- The two cases of INV_CHECK() (43_matrix.md R227). -/
theorem invCheck_cases (op : BitVec 4) (s : State) :
    (LeftShiftHolds s ∧ invCheck op s = s) ∨
    (¬ LeftShiftHolds s ∧ invCheck op s =
      raise .invariantViolation op { s with status := { s.status with invFault := true } }) := by
  unfold invCheck LeftShiftHolds
  split <;> simp_all

/-! What INV_CHECK() leaves alone: all but STATUS and ERR. -/

@[simp] theorem invCheck_params (op : BitVec 4) (s : State) : (invCheck op s).params = s.params := by
  unfold invCheck; split <;> rfl
@[simp] theorem invCheck_ctrl (op : BitVec 4) (s : State) : (invCheck op s).ctrl = s.ctrl := by
  unfold invCheck; split <;> rfl
@[simp] theorem invCheck_irqEn (op : BitVec 4) (s : State) : (invCheck op s).irqEn = s.irqEn := by
  unfold invCheck; split <;> rfl
@[simp] theorem invCheck_pbCount (op : BitVec 4) (s : State) : (invCheck op s).pbCount = s.pbCount := by
  unfold invCheck; split <;> rfl
@[simp] theorem invCheck_diag (op : BitVec 4) (s : State) : (invCheck op s).diag = s.diag := by
  unfold invCheck; split <;> rfl
@[simp] theorem invCheck_ev0 (op : BitVec 4) (s : State) : (invCheck op s).ev0 = s.ev0 := by
  unfold invCheck; split <;> rfl
@[simp] theorem invCheck_ev1 (op : BitVec 4) (s : State) : (invCheck op s).ev1 = s.ev1 := by
  unfold invCheck; split <;> rfl
@[simp] theorem invCheck_evRaw (op : BitVec 4) (s : State) : (invCheck op s).evRaw = s.evRaw := by
  unfold invCheck; split <;> rfl
@[simp] theorem invCheck_lookupRes (op : BitVec 4) (s : State) : (invCheck op s).lookupRes = s.lookupRes := by
  unfold invCheck; split <;> rfl
@[simp] theorem invCheck_timing (op : BitVec 4) (s : State) : (invCheck op s).timing = s.timing := by
  unfold invCheck; split <;> rfl
@[simp] theorem invCheck_mem (op : BitVec 4) (s : State) : (invCheck op s).mem = s.mem := by
  unfold invCheck; split <;> rfl
@[simp] theorem invCheck_caps (op : BitVec 4) (s : State) : (invCheck op s).caps = s.caps := by
  unfold invCheck; split <;> rfl
@[simp] theorem invCheck_lheld (op : BitVec 4) (s : State) : (invCheck op s).lheld = s.lheld := by
  unfold invCheck; split <;> rfl
@[simp] theorem invCheck_rheld (op : BitVec 4) (s : State) : (invCheck op s).rheld = s.rheld := by
  unfold invCheck; split <;> rfl
@[simp] theorem invCheck_restore (op : BitVec 4) (s : State) : (invCheck op s).restore = s.restore := by
  unfold invCheck; split <;> rfl
@[simp] theorem invCheck_matrix (op : BitVec 4) (s : State) : (invCheck op s).matrix = s.matrix := by
  unfold invCheck; split <;> rfl
@[simp] theorem invCheck_work (op : BitVec 4) (s : State) : (invCheck op s).work = s.work := by
  unfold invCheck; split <;> rfl
@[simp] theorem invCheck_job (op : BitVec 4) (s : State) : (invCheck op s).job = s.job := by
  unfold invCheck; split <;> rfl
@[simp] theorem invCheck_pins (op : BitVec 4) (s : State) : (invCheck op s).pins = s.pins := by
  unfold invCheck; split <;> rfl
@[simp] theorem invCheck_trace (op : BitVec 4) (s : State) : (invCheck op s).trace = s.trace := by
  unfold invCheck; split <;> rfl
@[simp] theorem invCheck_hold (op : BitVec 4) (s : State) : (invCheck op s).hold = s.hold := by
  unfold invCheck; split <;> rfl
@[simp] theorem invCheck_draws (op : BitVec 4) (s : State) : (invCheck op s).draws = s.draws := by
  unfold invCheck; split <;> rfl
@[simp] theorem invCheck_program (op : BitVec 4) (s : State) : (invCheck op s).program = s.program := by
  unfold invCheck; split <;> rfl
@[simp] theorem invCheck_reads (op : BitVec 4) (s : State) : (invCheck op s).reads = s.reads := by
  unfold invCheck; split <;> rfl

/-! ### The array behind the trace (43_matrix.md R213) -/

theorem arrayClosed_append (tr tr' : List PinEvent) (c : Coord) :
    arrayClosed (tr ++ tr') c = tr'.foldl (arrayAfter c) (arrayClosed tr c) := by
  simp [arrayClosed, List.foldl_append]

/-- After INIT_STATE()'s events every crosspoint of the array is open. -/
theorem arrayClosed_initTrace (tr : List PinEvent) (c : Coord) : arrayClosed (tr ++ initTrace) c = false := by
  rw [arrayClosed_append, initTrace, List.cons_append, List.foldl_cons, List.foldl_append]
  have key : ∀ l : List Nat,
      (l.map fun k => PinEvent.xwrite (BitVec.ofNat 6 k) false).foldl (arrayAfter c) false = false := by
    intro l
    induction l with
    | nil => rfl
    | cons k l ih =>
      rw [List.map_cons, List.foldl_cons]
      simpa [arrayAfter] using ih
  simpa [arrayAfter] using key (List.range 64)

end Sys2Proof.Machine
end

