-- ==== Sys2Proof/Laws/Matrix.lean ====
section
/-! SUPPORT. What APPLY_BODY can do, case by case, and what it leaves alone (43_matrix.md R214 to R227). -/

namespace Sys2Proof.Machine

/-- What the constraints of 00_scope.md R7 say of the codes and coordinates. -/
theorem paramsLegal_codes {s : State} (h : ParamsLegal s) :
    0x40 ≤ s.params.codeCaps.toNat ∧ 0x40 ≤ s.params.codeRestore.toNat ∧ 0x40 ≤ s.params.codeReset.toNat ∧
    s.params.codeCaps ≠ s.params.codeRestore ∧ s.params.codeCaps ≠ s.params.codeReset ∧
    s.params.codeRestore ≠ s.params.codeReset ∧ s.params.lshiftCoord ≠ s.params.rshiftCoord := by
  simp only [ParamsLegal, Params.wf, Bool.and_eq_true, decide_eq_true_eq] at h
  tauto

theorem paramsLegal_depths {s : State} (h : ParamsLegal s) :
    33 ≤ s.params.pbDepth ∧ s.params.pbDepth ≤ 64 ∧ 1 ≤ s.params.xlatDepth ∧ s.params.xlatDepth ≤ 256 := by
  simp only [ParamsLegal, Params.wf, Bool.and_eq_true, decide_eq_true_eq] at h
  tauto

/-- The output code of a coordinate is below 0x40 (00_scope.md R11). -/
@[simp] theorem coord_code_toNat (k : Coord) : (k.setWidth 8).toNat = k.toNat := by
  have := k.isLt
  simp only [BitVec.toNat_setWidth]
  omega

theorem coord_code_lt (k : Coord) : ¬ 0x40 ≤ (k.setWidth 8).toNat := by
  have := k.isLt
  rw [coord_code_toNat]
  omega

/-- A coordinate's code is none of the codes 0x40..0xFF. -/
theorem coord_code_ne (k : Coord) (c : Byte) (h : 0x40 ≤ c.toNat) : k.setWidth 8 ≠ c := by
  rintro rfl
  exact coord_code_lt k h

theorem coord_code_inj (k k' : Coord) : k.setWidth 8 = k'.setWidth 8 ↔ k = k' := by
  constructor
  · intro h
    apply BitVec.eq_of_toNat_eq
    rw [← coord_code_toNat k, ← coord_code_toNat k', h]
  · rintro rfl
    rfl

/-- The coordinate of a code below 0x40. -/
@[simp] theorem coord_of_code (k : Coord) : (k.setWidth 8).extractLsb' 0 6 = k := by
  apply BitVec.eq_of_toNat_eq
  have := k.isLt
  simp only [BitVec.extractLsb'_toNat, coord_code_toNat, Nat.shiftRight_zero]
  omega

/-- A code below 0x40 is its coordinate's. -/
theorem code_of_coord (c : Byte) (h : ¬ 0x40 ≤ c.toNat) : (c.extractLsb' 0 6).setWidth 8 = c := by
  apply BitVec.eq_of_toNat_eq
  rw [coord_code_toNat, BitVec.extractLsb'_toNat, Nat.shiftRight_zero]
  omega

/-- The cases of APPLY_BODY in the order of 43_matrix.md R222. -/
theorem applyBody_cases (op : BitVec 4) (c : Byte) (p a : Bool) (s : State) :
    (c = s.params.codeCaps ∧ applyBody op c p a s = invCheck op (applyCaps p s)) ∨
    (c ≠ s.params.codeCaps ∧ c = s.params.codeRestore ∧ applyBody op c p a s = invCheck op (applyRestore p s)) ∨
    (c ≠ s.params.codeCaps ∧ c ≠ s.params.codeRestore ∧ c = s.params.codeReset ∧
      applyBody op c p a s = invCheck op (applyReset p s)) ∨
    (¬ AssignedCode s.params c ∧ applyBody op c p a s = raise .reservedCode op s) ∨
    (c = s.params.lshiftCoord.setWidth 8 ∧ applyBody op c p a s = invCheck op (applyLeftShift p s)) ∨
    (c ≠ s.params.lshiftCoord.setWidth 8 ∧ c = s.params.rshiftCoord.setWidth 8 ∧
      applyBody op c p a s = invCheck op (applyRightShift p s)) ∨
    (∃ k : Coord, c = k.setWidth 8 ∧ k ≠ s.params.lshiftCoord ∧ k ≠ s.params.rshiftCoord ∧
      applyBody op c p a s = invCheck op (applyKey k p a s)) := by
  unfold applyBody AssignedCode
  split
  · next h => exact .inl ⟨h, rfl⟩
  split
  · next h1 h2 => exact .inr (.inl ⟨h1, h2, rfl⟩)
  split
  · next h1 h2 h3 => exact .inr (.inr (.inl ⟨h1, h2, h3, rfl⟩))
  split
  · next h1 h2 h3 h4 =>
    refine .inr (.inr (.inr (.inl ⟨?_, rfl⟩)))
    rintro (h | h | h | h)
    · omega
    · exact h1 h
    · exact h2 h
    · exact h3 h
  split
  · next h => exact .inr (.inr (.inr (.inr (.inl ⟨h, rfl⟩))))
  split
  · next h1 h2 => exact .inr (.inr (.inr (.inr (.inr (.inl ⟨h1, h2, rfl⟩)))))
  · next h4 h5 h6 =>
    refine .inr (.inr (.inr (.inr (.inr (.inr ⟨c.extractLsb' 0 6, (code_of_coord c h4).symm, ?_, ?_, rfl⟩)))))
    · intro e
      exact h5 (by rw [← e, code_of_coord c h4])
    · intro e
      exact h6 (by rw [← e, code_of_coord c h4])

/-- APPLY_BODY of each code, where the parameters are legal. -/
theorem applyBody_caps (op : BitVec 4) (p a : Bool) (s : State) :
    applyBody op s.params.codeCaps p a s = invCheck op (applyCaps p s) := if_pos rfl

theorem applyBody_restore (op : BitVec 4) (p a : Bool) (s : State) (h : ParamsLegal s) :
    applyBody op s.params.codeRestore p a s = invCheck op (applyRestore p s) := by
  obtain ⟨-, -, -, h1, -⟩ := paramsLegal_codes h
  rw [applyBody, if_neg h1.symm, if_pos rfl]

theorem applyBody_reset (op : BitVec 4) (p a : Bool) (s : State) (h : ParamsLegal s) :
    applyBody op s.params.codeReset p a s = invCheck op (applyReset p s) := by
  obtain ⟨-, -, -, -, h1, h2, -⟩ := paramsLegal_codes h
  rw [applyBody, if_neg h1.symm, if_neg h2.symm, if_pos rfl]

theorem applyBody_coord (op : BitVec 4) (k : Coord) (p a : Bool) (s : State) (h : ParamsLegal s) :
    applyBody op (k.setWidth 8) p a s =
      if k = s.params.lshiftCoord then invCheck op (applyLeftShift p s)
      else if k = s.params.rshiftCoord then invCheck op (applyRightShift p s)
      else invCheck op (applyKey k p a s) := by
  obtain ⟨h1, h2, h3, -⟩ := paramsLegal_codes h
  rw [applyBody, if_neg (coord_code_ne k _ h1), if_neg (coord_code_ne k _ h2), if_neg (coord_code_ne k _ h3),
    if_neg (coord_code_lt k), coord_of_code]
  exact if_congr (coord_code_inj _ _) rfl (if_congr (coord_code_inj _ _) rfl rfl)

theorem applyBody_unassigned (op : BitVec 4) (c : Byte) (p a : Bool) (s : State) (h : ¬ AssignedCode s.params c) :
    applyBody op c p a s = raise .reservedCode op s := by
  unfold AssignedCode at h
  rw [applyBody, if_neg (by tauto), if_neg (by tauto), if_neg (by tauto), if_pos (by omega)]

/-! ### The matrix after each case -/

@[simp] theorem autoShift_eq (p a : Bool) (s : State) :
    autoShift p a s =
      { s with
        matrix := if a then setCross s.matrix s.params.rshiftCoord (p || s.rheld) else s.matrix
        trace := s.trace ++ if a then [.xwrite s.params.rshiftCoord (p || s.rheld)] else []
        pins := if a then settle s.params s.pins (.xwrite s.params.rshiftCoord (p || s.rheld)) else s.pins } := by
  unfold autoShift
  cases a <;> cases p <;> simp [xwrite, emit]

/-- Every case but the reserved code re-establishes or keeps the left-shift invariant (43_matrix.md R225). -/
theorem leftShift_applyCaps (p : Bool) (s : State) (h : LeftShiftHolds s) : LeftShiftHolds (applyCaps p s) := by
  unfold applyCaps
  cases p
  · exact h
  · simp [LeftShiftHolds]

theorem leftShift_applyRestore (p : Bool) (s : State) (h : LeftShiftHolds s) : LeftShiftHolds (applyRestore p s) := by
  unfold applyRestore
  cases p <;> exact h

theorem leftShift_initState (s : State) : LeftShiftHolds (initState s) := by
  rw [initState_eq]
  simp [LeftShiftHolds]

theorem leftShift_applyReset (p : Bool) (s : State) (h : LeftShiftHolds s) : LeftShiftHolds (applyReset p s) := by
  unfold applyReset
  cases p
  · exact h
  · exact leftShift_initState s

theorem leftShift_applyLeftShift (p : Bool) (s : State) : LeftShiftHolds (applyLeftShift p s) := by
  simp [LeftShiftHolds, applyLeftShift]

theorem leftShift_applyRightShift (p : Bool) (s : State) (hp : ParamsLegal s) (h : LeftShiftHolds s) :
    LeftShiftHolds (applyRightShift p s) := by
  obtain ⟨-, -, -, -, -, -, hne⟩ := paramsLegal_codes hp
  simpa [LeftShiftHolds, applyRightShift, crossAt_setCross_ne _ _ _ _ hne] using h

theorem leftShift_applyKey (k : Coord) (p a : Bool) (s : State) (hp : ParamsLegal s) (h : LeftShiftHolds s)
    (hk : k ≠ s.params.lshiftCoord) : LeftShiftHolds (applyKey k p a s) := by
  obtain ⟨-, -, -, -, -, -, hne⟩ := paramsLegal_codes hp
  cases a <;> simpa [LeftShiftHolds, applyKey, crossAt_setCross_ne _ _ _ _ hne, crossAt_setCross_ne _ _ _ _ hk.symm] using h

/-! ### What APPLY_BODY leaves alone -/

/-- `t` differs from `s` in the matrix controller, the pins and the error state at most. -/
def MatrixStep (s t : State) : Prop :=
  ∃ (ov er iv : Bool) (e : ErrReg) (c l r z : Bool) (m : BitVec 64) (tr : List PinEvent) (p : Pins),
    t = { s with
      status := { s.status with errOvf := ov, err := er, invFault := iv }, err := e
      caps := c, lheld := l, rheld := r, restore := z, matrix := m, trace := tr, pins := p }

theorem matrixStep_refl (s : State) : MatrixStep s s := ⟨_, _, _, _, _, _, _, _, _, _, _, rfl⟩

theorem matrixStep_trans {s t u : State} (h : MatrixStep s t) (h' : MatrixStep t u) : MatrixStep s u := by
  obtain ⟨_, _, _, _, _, _, _, _, _, _, _, rfl⟩ := h
  obtain ⟨_, _, _, _, _, _, _, _, _, _, _, rfl⟩ := h'
  exact ⟨_, _, _, _, _, _, _, _, _, _, _, rfl⟩

theorem matrixStep_raise (n : ErrorName) (op : BitVec 4) (s : State) : MatrixStep s (raise n op s) :=
  ⟨_, _, _, _, _, _, _, _, _, _, _, rfl⟩

theorem matrixStep_xwrite (c : Coord) (v : Bool) (s : State) : MatrixStep s (xwrite c v s) :=
  ⟨_, _, _, _, _, _, _, _, _, _, _, rfl⟩

theorem matrixStep_initState (s : State) : MatrixStep s (initState s) := by
  rw [initState_eq]
  exact ⟨_, _, _, _, _, _, _, _, _, _, _, rfl⟩

theorem matrixStep_invCheck (op : BitVec 4) (s : State) : MatrixStep s (invCheck op s) := by
  rcases invCheck_cases op s with ⟨-, h⟩ | ⟨-, h⟩ <;> rw [h]
  · exact matrixStep_refl s
  · exact ⟨_, _, _, _, _, _, _, _, _, _, _, rfl⟩

/-- APPLY_BODY changes the matrix controller, the pins and the error state at most. -/
theorem matrixStep_applyBody (op : BitVec 4) (c : Byte) (p a : Bool) (s : State) :
    MatrixStep s (applyBody op c p a s) := by
  rcases applyBody_cases op c p a s with
    ⟨-, h⟩ | ⟨-, -, h⟩ | ⟨-, -, -, h⟩ | ⟨-, h⟩ | ⟨-, h⟩ | ⟨-, -, h⟩ | ⟨k, -, -, -, h⟩ <;> rw [h]
  · refine matrixStep_trans ?_ (matrixStep_invCheck op _)
    cases p
    · exact matrixStep_refl s
    · exact ⟨_, _, _, _, _, _, _, _, _, _, _, rfl⟩
  · refine matrixStep_trans ?_ (matrixStep_invCheck op _)
    cases p <;> exact ⟨_, _, _, _, _, _, _, _, _, _, _, rfl⟩
  · refine matrixStep_trans ?_ (matrixStep_invCheck op _)
    cases p
    · exact matrixStep_refl s
    · exact matrixStep_initState s
  · exact matrixStep_raise _ _ _
  · exact matrixStep_trans ⟨_, _, _, _, _, _, _, _, _, _, _, rfl⟩ (matrixStep_invCheck op _)
  · exact matrixStep_trans ⟨_, _, _, _, _, _, _, _, _, _, _, rfl⟩ (matrixStep_invCheck op _)
  · refine matrixStep_trans ?_ (matrixStep_invCheck op _)
    rw [applyKey, autoShift_eq]
    exact ⟨_, _, _, _, _, _, _, _, _, _, _, rfl⟩

/-- Where the parameters are legal and the left-shift invariant holds, APPLY_BODY keeps it (43_matrix.md R225). -/
theorem leftShift_applyBody (op : BitVec 4) (c : Byte) (p a : Bool) (s : State) (hp : ParamsLegal s)
    (hl : LeftShiftHolds s) : LeftShiftHolds (applyBody op c p a s) := by
  rcases applyBody_cases op c p a s with
    ⟨-, h⟩ | ⟨-, -, h⟩ | ⟨-, -, -, h⟩ | ⟨-, h⟩ | ⟨-, h⟩ | ⟨-, -, h⟩ | ⟨k, -, hk, -, h⟩ <;> rw [h]
  · have := leftShift_applyCaps p s hl
    rwa [invCheck_of_leftShift _ _ this]
  · have := leftShift_applyRestore p s hl
    rwa [invCheck_of_leftShift _ _ this]
  · have := leftShift_applyReset p s hl
    rwa [invCheck_of_leftShift _ _ this]
  · exact hl
  · have := leftShift_applyLeftShift p s
    rwa [invCheck_of_leftShift _ _ this]
  · have := leftShift_applyRightShift p s hp hl
    rwa [invCheck_of_leftShift _ _ this]
  · have := leftShift_applyKey k p a s hp hl hk
    rwa [invCheck_of_leftShift _ _ this]

/-- Where the left-shift invariant holds, the only error of APPLY_BODY is RESERVED_CODE, and then nothing else changes
(43_matrix.md R224, R228). -/
theorem applyBody_error (op : BitVec 4) (c : Byte) (p a : Bool) (s : State) (hp : ParamsLegal s)
    (hl : LeftShiftHolds s) :
    applyBody op c p a s = raise .reservedCode op s ∨
    ((applyBody op c p a s).status = s.status ∧ (applyBody op c p a s).err = s.err) := by
  rcases applyBody_cases op c p a s with
    ⟨-, h⟩ | ⟨-, -, h⟩ | ⟨-, -, -, h⟩ | ⟨-, h⟩ | ⟨-, h⟩ | ⟨-, -, h⟩ | ⟨k, -, hk, -, h⟩ <;> rw [h]
  · rw [invCheck_of_leftShift _ _ (leftShift_applyCaps p s hl)]
    cases p <;> exact .inr ⟨rfl, rfl⟩
  · rw [invCheck_of_leftShift _ _ (leftShift_applyRestore p s hl)]
    cases p <;> exact .inr ⟨rfl, rfl⟩
  · rw [invCheck_of_leftShift _ _ (leftShift_applyReset p s hl)]
    cases p
    · exact .inr ⟨rfl, rfl⟩
    · rw [applyReset, if_pos rfl, initState_eq]
      exact .inr ⟨rfl, rfl⟩
  · exact .inl rfl
  · rw [invCheck_of_leftShift _ _ (leftShift_applyLeftShift p s)]
    exact .inr ⟨rfl, rfl⟩
  · rw [invCheck_of_leftShift _ _ (leftShift_applyRightShift p s hp hl)]
    exact .inr ⟨rfl, rfl⟩
  · rw [invCheck_of_leftShift _ _ (leftShift_applyKey k p a s hp hl hk), applyKey, autoShift_eq]
    exact .inr ⟨rfl, rfl⟩

end Sys2Proof.Machine
end

