-- ==== Sys2Proof/Laws/Lookup.lean ====
section
/-! SUPPORT. What the lookup and the dispatch can do, said once (42_dispatch.md R190 to R194). -/

namespace Sys2Proof.Machine

/-- The applicability test of the model is R190's on the bits of the entry. -/
theorem entryApplies_iff (e : Word) (c : Byte) (sh : Bool) : entryApplies e c sh = true ↔ Applies e c sh := by
  have h0 : (entryFlags e).getLsbD 0 = e.getLsbD 16 := by simp [entryFlags]
  have h1 : (entryFlags e).getLsbD 1 = e.getLsbD 17 := by simp [entryFlags]
  unfold entryApplies Applies
  rw [h0, h1]
  simp only [entryValid, entryIn, Bool.and_eq_true, Bool.or_eq_true, Bool.not_eq_true', beq_iff_eq]
  tauto

/-- AUTOSHIFT is bit 18 of the entry (10_state.md R30, 42_dispatch.md R194). -/
theorem entryAutoShift_eq (e : Word) : entryAutoShift e = e.getLsbD 18 := by simp [entryAutoShift, entryFlags]

/-- The search of a table for the first applicable entry. -/
theorem find_first (P : Word → Bool) (f : Nat → Word) (n : Nat) (i : Nat) (e : Word) :
    ((List.range n).map fun i => (i, f i)).find? (fun ie => P ie.2) = some (i, e) ↔
      i < n ∧ e = f i ∧ P e = true ∧ ∀ j < i, P (f j) = false := by
  rw [List.find?_map, Option.map_eq_some_iff]
  constructor
  · rintro ⟨a, h, he⟩
    injection he with h1 h2
    subst h1 h2
    rw [List.find?_range_eq_some] at h
    obtain ⟨hp, hm, hb⟩ := h
    exact ⟨List.mem_range.1 hm, rfl, hp, fun j hj => by simpa using hb j hj⟩
  · rintro ⟨hi, rfl, hp, hb⟩
    refine ⟨i, ?_, rfl⟩
    rw [List.find?_range_eq_some]
    exact ⟨hp, List.mem_range.2 hi, fun j hj => by simpa using hb j hj⟩

/-- LOOKUP_CORE finds exactly the first applicable entry (R192). -/
theorem lookupCore_some (c : Byte) (sh : Bool) (s : State) (i : Nat) (e : Word) :
    lookupCore c sh s = some (i, e) ↔ FirstHit s c sh i ∧ e = xlatEntry s.mem i := by
  rw [lookupCore, find_first (fun e => entryApplies e c sh)]
  simp only [FirstHit, ← entryApplies_iff, Bool.not_eq_true]
  constructor
  · intro h
    have he := h.2.1
    subst he
    exact ⟨⟨h.1, h.2.2.1, h.2.2.2⟩, rfl⟩
  · intro h
    have he := h.2
    subst he
    exact ⟨h.1.1, rfl, h.1.2.1, h.1.2.2⟩

/-- LOOKUP_CORE misses exactly where no entry applies (R192). -/
theorem lookupCore_none (c : Byte) (sh : Bool) (s : State) : lookupCore c sh s = none ↔ NoHit s c sh := by
  simp only [lookupCore, List.find?_eq_none, List.forall_mem_map, List.mem_range, entryApplies_iff, NoHit]

/-- The input shift state (R191). -/
theorem inputShift_eq (s : State) : inputShift s = ShiftOf s := by
  rw [inputShift, ShiftOf, ev1Mod, Bool.eq_iff_iff]
  simp

/-- LOOKUP_RES of a hit, field by field (10_state.md R36). -/
theorem lookupWord_hit (i : Nat) (e : Word) (sh : Bool) : HitWord (lookupWord (some (i, e)) sh) e i sh := by
  rw [lookupWord, entryAutoShift_eq]
  unfold HitWord entryFlags entryOut
  refine ⟨?_, ?_, ?_, ?_, ?_, ?_, ?_⟩
  all_goals first
    | (apply BitVec.eq_of_getLsbD_eq; intro k hk
       simp only [BitVec.getLsbD_extractLsb', BitVec.getLsbD_append, BitVec.getLsbD_ofBool]
       interval_cases k <;> simp)
    | simp only [BitVec.getLsbD_append, BitVec.getLsbD_ofBool]; simp

/-- LOOKUP_RES of a miss (10_state.md R36). -/
theorem lookupWord_miss (sh : Bool) : lookupWord none sh = MissWord sh := by cases sh <;> rfl

/-- The three cases of DISPATCH_BODY (R193). -/
theorem dispatchBody_cases (op : BitVec 4) (s : State) :
    (s.ev0.extractLsb' 0 2 ≠ 1#2 ∧ dispatchBody op s = s) ∨
    (s.ev0.extractLsb' 0 2 = 1#2 ∧ NoHit s (s.ev1.extractLsb' 0 8) (ShiftOf s) ∧
      dispatchBody op s = raise .unknownInputKey op (writeLookupRes (MissWord (ShiftOf s)) s)) ∨
    (s.ev0.extractLsb' 0 2 = 1#2 ∧ ∃ i, FirstHit s (s.ev1.extractLsb' 0 8) (ShiftOf s) i ∧
      dispatchBody op s =
        applyBody op ((xlatEntry s.mem i).extractLsb' 8 8) (!s.ev0.getLsbD 8) ((xlatEntry s.mem i).getLsbD 18)
          (writeLookupRes (lookupWord (some (i, xlatEntry s.mem i)) (ShiftOf s)) s)) := by
  have hk : kindCode .key = 1#2 := rfl
  rw [dispatchBody, inputShift_eq, hk]
  unfold ev0Kind ev1Code ev0Rel
  by_cases h : s.ev0.extractLsb' 0 2 = 1#2
  · rw [if_pos h]
    refine .inr ?_
    cases hl : lookupCore (s.ev1.extractLsb' 0 8) (ShiftOf s) s with
    | none =>
      refine .inl ⟨h, (lookupCore_none _ _ _).1 hl, ?_⟩
      rw [lookupWord_miss]
    | some ie =>
      have hf := (lookupCore_some _ _ _ ie.1 ie.2).1 hl
      refine .inr ⟨h, ie.1, hf.1, ?_⟩
      simp only [entryAutoShift_eq, entryOut, ← hf.2]
  · rw [if_neg h]
    exact .inl ⟨h, rfl⟩

end Sys2Proof.Machine
end

