-- ==== Sys2Proof/Laws/Commands.lean ====
section
/-! SUPPORT. Every command as the wrapper's end after a body, and the principle that a body keeps what each shared
operation keeps. -/

namespace Sys2Proof.Machine

/-- What a command does before the wrapper's end (44_control.md R241). -/
def commandBody : Instr → State → State
  | .nop, s => s
  | .decode d, s => decodeBody d (discriminate s s.work) s
  | .decodeK d, s => decodeBody d (selectKbd s s.work) s
  | .decodeJ d, s => decodeBody d (selectJoy s .notTried s.work) s
  | .dispatch, s => dispatchBody 2#4 s
  | .apply c p a, s => applyBody 3#4 c p a s
  | .mreset, s => initState s
  | .rearm, s => dropFrame s
  | .lookup c sh, s => writeLookupRes (lookupWord (lookupCore c sh s) sh) s

/-- Every command answers a next state: its body, then the wrapper's end. -/
theorem exec_eq (i : Instr) (s : State) : exec i s = .next (completeCommand (commandBody i s)) := by
  cases i with
  | mreset =>
    show Host.Outcome.next (completeCommand (invCheck 4#4 (initState s))) = _
    rw [invCheck_of_leftShift _ _ (leftShift_initState s)]
    rfl
  | _ => rfl

/-- The next state of a command. -/
theorem exec_next {i : Instr} {s t : State} (h : exec i s = .next t) : t = completeCommand (commandBody i s) := by
  rw [exec_eq] at h
  injection h with h
  exact h.symm

/-! ### The raw values a decoder hands on -/

/-- The raw value of a result has bits 31:28 zero (10_state.md R35). -/
def RawTopZero : FrameResult → Prop
  | .malformed => True
  | .chkFail p => p.extractLsb' 28 4 = 0#4
  | .event e => e.raw.extractLsb' 28 4 = 0#4

/-- JOYKB_SENTINEL is a value of 0x0000001..0xFFFFFFF (00_scope.md R7). -/
theorem joykbSentinel_range : 1 ≤ Config.joykbSentinel.toNat ∧ Config.joykbSentinel.toNat ≤ 0xFFFFFFF := by
  unfold Config.joykbSentinel
  split
  · decide
  · next h =>
    have h1 : Config.sentinelDraw.toNat ≠ 0 := fun e => h (BitVec.eq_of_toNat_eq e)
    have h2 := Config.sentinelDraw.isLt
    simp only [BitVec.toNat_setWidth]
    omega

theorem topZero_of_lt (w : Word) (h : w.toNat < 2 ^ 28) : w.extractLsb' 28 4 = 0#4 := by
  apply BitVec.eq_of_toNat_eq
  rw [BitVec.extractLsb'_toNat, Nat.shiftRight_eq_div_pow, Nat.div_eq_of_lt h]
  rfl

theorem rawTopZero_validate (p : Word) (h : p.extractLsb' 28 4 = 0#4) : RawTopZero (validateKbd p) := by
  unfold validateKbd
  split
  · split
    · exact h
    · unfold RawTopZero joykbEvent
      dsimp only
      split
      · exact topZero_of_lt _ (by have := joykbSentinel_range.2; omega)
      · exact h
  · exact h

theorem rawTopZero_selectKbd (s : State) (w : Work) : RawTopZero (selectKbd s w).res := by
  rcases kbd_cases s.timing (frame s) w with ⟨w', h⟩ | ⟨r, n, w', h⟩
  · rw [selectKbd_ok s w _ _ (congrArg Prod.fst h)]
    exact rawTopZero_validate _ (kbd_ok _ _ _ _ _ (congrArg Prod.fst h)).2
  · rw [selectKbd_reject s w (by rw [h]; intro p n e; cases e)]
    trivial

theorem rawTopZero_selectJoy (s : State) (kr : Attempt Word) (w : Work) : RawTopZero (selectJoy s kr w).res := by
  rcases joy_cases s.timing s.ctrl (frame s) w with ⟨w', h⟩ | ⟨r, n, w', h⟩
  · rw [selectJoy_ok s kr w _ _ (congrArg Prod.fst h)]
    refine topZero_of_lt _ ?_
    have := w'.data.isLt
    simp only [joyEvent, BitVec.toNat_setWidth]
    omega
  · rw [selectJoy_reject s kr w (by rw [h]; intro p n e; cases e)]
    trivial

theorem rawTopZero_discriminateJoy (s : State) (kr : Attempt Word) (w : Work) :
    RawTopZero (discriminateJoy s kr w).res := by
  unfold discriminateJoy
  split
  · exact rawTopZero_selectJoy s kr w
  · trivial

theorem rawTopZero_discriminate (s : State) (w : Work) : RawTopZero (discriminate s w).res := by
  unfold discriminate
  split
  · split
    · exact rawTopZero_selectKbd s w
    · exact rawTopZero_discriminateJoy s _ _
  · exact rawTopZero_discriminateJoy s _ _

/-- EV0 of an event has its reserved bits 0 (10_state.md R33). -/
theorem ev0Word_reserved (e : Event) : ev0Word e &&& 0xFF00F0FC#32 = 0#32 := by
  apply BitVec.eq_of_getLsbD_eq
  intro i hi
  rw [BitVec.getLsbD_and]
  simp only [ev0Word, BitVec.getLsbD_append]
  interval_cases i <;> simp

/-- EV1 of an event has its reserved bits 0 (10_state.md R34). -/
theorem ev1Word_reserved (e : Event) : ev1Word e &&& 0xFFFF0000#32 = 0#32 := by
  apply BitVec.eq_of_getLsbD_eq
  intro i hi
  rw [BitVec.getLsbD_and]
  simp only [ev1Word, BitVec.getLsbD_append]
  interval_cases i <;> simp

/-- DIAG has its reserved bits 0 (10_state.md R32). -/
theorem diagWord_reserved (kr : Attempt Word) (jr : Attempt (BitVec 16)) : diagWord kr jr &&& 0xFF000000#32 = 0#32 := by
  apply BitVec.eq_of_getLsbD_eq
  intro i hi
  rw [BitVec.getLsbD_and]
  simp only [diagWord, BitVec.getLsbD_append]
  interval_cases i <;> simp

/-- LOOKUP_RES has its reserved bits 0 (10_state.md R36). -/
theorem lookupWord_reserved (r : Option (Nat × Word)) (sh : Bool) : lookupWord r sh &&& 0x7C000000#32 = 0#32 := by
  unfold lookupWord
  split
  all_goals
    apply BitVec.eq_of_getLsbD_eq
    intro i hi
    rw [BitVec.getLsbD_and]
    simp only [BitVec.getLsbD_append]
    interval_cases i <;> simp

/-! ### What every body keeps -/

/-- A predicate that every shared operation keeps. -/
structure Kept (P : State → Prop) : Prop where
  raise : ∀ n op t, n ≠ ErrorName.invariantViolation → P t → P (raise n op t)
  apply : ∀ op c p a t, P t → P (applyBody op c p a t)
  init : ∀ t, P t → P (initState t)
  lookup : ∀ r sh t, P t → P (writeLookupRes (lookupWord r sh) t)
  drop : ∀ t, P t → P (dropFrame t)
  diag : ∀ kr jr t, P t → P (writeDiag (diagWord kr jr) t)
  work : ∀ w t, P t → P (setWork w t)
  event : ∀ e0 e1 raw t, e0 &&& 0xFF00F0FC#32 = 0#32 → e1 &&& 0xFFFF0000#32 = 0#32 → raw.extractLsb' 28 4 = 0#4 →
    P t → P (writeEvent e0 e1 raw t)
  mark : ∀ t, P t → P (markEvent t)

theorem Kept.dispatchBody {P : State → Prop} (k : Kept P) (op : BitVec 4) (s : State) (h : P s) :
    P (dispatchBody op s) := by
  unfold Machine.dispatchBody
  split
  · split
    · exact k.apply _ _ _ _ _ (k.lookup _ _ _ h)
    · exact k.raise _ _ _ (by decide) (k.lookup _ _ _ h)
  · exact h

theorem Kept.decodeBody {P : State → Prop} (k : Kept P) (d : Bool) (sel : Selected) (s : State)
    (hr : RawTopZero sel.res) (h : P s) : P (decodeBody d sel s) := by
  unfold Machine.decodeBody
  split
  · have hc : P (consumeFrame sel s) := k.drop _ (k.diag _ _ _ (k.work _ _ h))
    unfold deliver
    split
    · exact k.raise _ _ _ (by decide) (k.event _ _ _ _ (by decide) (by decide) (by decide) hc)
    · next p hp =>
      rw [hp] at hr
      exact k.raise _ _ _ (by decide) (k.event _ _ _ _ (by decide) (by decide) hr hc)
    · next e he =>
      rw [he] at hr
      have hm := k.mark _ (k.event _ _ _ _ (ev0Word_reserved e) (ev1Word_reserved e) hr hc)
      split
      · exact k.dispatchBody _ _ hm
      · exact hm
  · exact k.raise _ _ _ (by decide) h

/-- A body keeps what every shared operation keeps. -/
theorem Kept.commandBody {P : State → Prop} (k : Kept P) (i : Instr) (s : State) (h : P s) : P (commandBody i s) := by
  cases i with
  | nop => exact h
  | decode d => exact k.decodeBody _ _ _ (rawTopZero_discriminate _ _) h
  | decodeK d => exact k.decodeBody _ _ _ (rawTopZero_selectKbd _ _) h
  | decodeJ d => exact k.decodeBody _ _ _ (rawTopZero_selectJoy _ _ _) h
  | dispatch => exact k.dispatchBody _ _ h
  | apply c p a => exact k.apply _ _ _ _ _ h
  | mreset => exact k.init _ h
  | rearm => exact k.drop _ h
  | lookup c sh => exact k.lookup _ _ _ h

/-- What no body changes: the build parameters, the configuration, the frame's count and memory, the host's side, and what
the engine holds. -/
structure SameConfig (s t : State) : Prop where
  params : t.params = s.params
  ctrl : t.ctrl = s.ctrl
  irqEn : t.irqEn = s.irqEn
  pbCount : t.pbCount = s.pbCount
  timing : t.timing = s.timing
  mem : t.mem = s.mem
  job : t.job = s.job
  hold : t.hold = s.hold
  draws : t.draws = s.draws
  program : t.program = s.program
  reads : t.reads = s.reads

theorem kept_sameConfig (s : State) : Kept (SameConfig s) where
  raise n op t _ h := ⟨h.1, h.2, h.3, h.4, h.5, h.6, h.7, h.8, h.9, h.10, h.11⟩
  apply op c p a t h := by
    obtain ⟨_, _, _, _, _, _, _, _, _, _, _, e⟩ := matrixStep_applyBody op c p a t
    rw [e]
    exact ⟨h.1, h.2, h.3, h.4, h.5, h.6, h.7, h.8, h.9, h.10, h.11⟩
  init t h := by
    rw [initState_eq]
    exact ⟨h.1, h.2, h.3, h.4, h.5, h.6, h.7, h.8, h.9, h.10, h.11⟩
  lookup r sh t h := ⟨h.1, h.2, h.3, h.4, h.5, h.6, h.7, h.8, h.9, h.10, h.11⟩
  drop t h := ⟨h.1, h.2, h.3, h.4, h.5, h.6, h.7, h.8, h.9, h.10, h.11⟩
  diag kr jr t h := ⟨h.1, h.2, h.3, h.4, h.5, h.6, h.7, h.8, h.9, h.10, h.11⟩
  work w t h := ⟨h.1, h.2, h.3, h.4, h.5, h.6, h.7, h.8, h.9, h.10, h.11⟩
  event e0 e1 raw t _ _ _ h := ⟨h.1, h.2, h.3, h.4, h.5, h.6, h.7, h.8, h.9, h.10, h.11⟩
  mark t h := ⟨h.1, h.2, h.3, h.4, h.5, h.6, h.7, h.8, h.9, h.10, h.11⟩

/-- No body changes the configuration, the memory or the host's side. -/
theorem commandBody_sameConfig (i : Instr) (s : State) : SameConfig s (commandBody i s) :=
  (kept_sameConfig s).commandBody i s ⟨rfl, rfl, rfl, rfl, rfl, rfl, rfl, rfl, rfl, rfl, rfl⟩

end Sys2Proof.Machine
end

