-- ==== Sys2Proof/Laws/Step.lean ====
section
/-! SUPPORT. What one step of the machine can be, and what one host event can be, said once. -/

namespace Sys2Proof.Machine

/-! ### The host's side -/

/-- What a read can be (20_memory.md R63, R68). -/
theorem memRead_cases (a : BusAddr) (s : State) :
    (memRead a s = { s with reads := s.reads ++ [Config.busyRead s.draws], draws := s.draws + 1 } ∧
      s.status.busy = true ∧ freeWhileBusy (regAt s.params a) = true) ∨
    (memRead a s = { s with reads := s.reads ++ [readReg s (regAt s.params a)] } ∧
      ¬ (s.status.busy = true ∧ freeWhileBusy (regAt s.params a) = true)) := by
  unfold memRead
  dsimp only
  split
  · next h => exact .inl ⟨rfl, by simpa using h⟩
  · next h => exact .inr ⟨rfl, fun e => h (by simpa using e)⟩

/-- A read changes only what the host has read, and the draw counter (20_memory.md R63). -/
theorem memRead_keeps (P : State → Prop) (hp : ∀ t r d, P t → P { t with reads := r, draws := d }) (a : BusAddr)
    (t : State) (h : P t) : P (memRead a t) := by
  rcases memRead_cases a t with ⟨e, -⟩ | ⟨e, -⟩ <;> rw [e] <;> exact hp _ _ _ h

/-- What a write can be: dropped with its error while BUSY, or accepted (20_memory.md R64 to R69). -/
theorem memWrite_cases (a : BusAddr) (v : Word) (s : State) :
    (s.status.busy = true ∧ regAt s.params a = .cmd ∧ memWrite a v s = recordError .cmdWhileBusy (opField v) 0#12 s) ∨
    (s.status.busy = true ∧ guardedWhileBusy (regAt s.params a) = true ∧
      memWrite a v s = recordError .writeWhileBusy 0xF#4 (wordAddr a) s) ∨
    (¬ (s.status.busy = true ∧ (regAt s.params a = .cmd ∨ guardedWhileBusy (regAt s.params a) = true)) ∧
      memWrite a v s = writeReg s v (regAt s.params a)) := by
  unfold memWrite
  dsimp only
  split
  · next hb =>
    split
    · next hc => exact .inl ⟨hb, hc, rfl⟩
    · next hc =>
      split
      · next hg => exact .inr (.inl ⟨hb, hg, rfl⟩)
      · next hg => exact .inr (.inr ⟨fun e => e.2.elim hc hg, rfl⟩)
  · next hb => exact .inr (.inr ⟨fun e => hb e.1, rfl⟩)

/-- What an accepted write can change (20_memory.md R64 to R67): a CMD write starts the engine; any other changes CTRL,
the four W1C bits, IRQ_EN, PB_COUNT with FRAME_READY, the windows, or the memory by one word. -/
theorem writeReg_cases (s : State) (v : Word) (r : Reg) :
    (r = .cmd ∧ writeReg s v r = acceptCommand v s) ∨
    (r ≠ .cmd ∧ ∃ (c : Ctrl) (st : Status) (ie : IrqEn) (n : BitVec 8) (tm : Timing) (m : Memory),
      writeReg s v r = { s with ctrl := c, status := st, irqEn := ie, pbCount := n, timing := tm, mem := m } ∧
      st.busy = s.status.busy ∧ st.invFault = s.status.invFault ∧
      (m = s.mem ∨ ∃ a w, m = s.mem.writeWord a w)) := by
  cases r
  case cmd => exact .inl ⟨rfl, rfl⟩
  case pb i =>
    exact .inr ⟨by simp, s.ctrl, s.status, s.irqEn, s.pbCount, s.timing, _, rfl, rfl, rfl, .inr ⟨_, _, rfl⟩⟩
  case xlat i =>
    exact .inr ⟨by simp, s.ctrl, s.status, s.irqEn, s.pbCount, s.timing, _, rfl, rfl, rfl, .inr ⟨_, _, rfl⟩⟩
  all_goals exact .inr ⟨by simp, _, _, _, _, _, _, rfl, rfl, rfl, .inl rfl⟩

/-! ### Power-on reset -/

/-- Power-on reset gives every piece of the block's state its reset value (70_reset_and_hazards.md R281, R284). -/
theorem powerOnReset_eq (s : State) : powerOnReset s = resetFrom s s.program := rfl

/-- The initial MRESET: INIT_STATE(), then BUSY <- 0 (70_reset_and_hazards.md R281). -/
theorem initialReset_eq (s : State) :
    initialReset s =
      { s with
        status := { s.status with busy := false }
        matrix := 0#64, caps := false, lheld := false, rheld := false, restore := false
        trace := s.trace ++ initTrace, pins := pinsAfterInit s.pins
        job := none, hold := 0 } := by
  unfold initialReset
  rw [initState_eq]
  rfl

/-! ### One step -/

/-- With nothing to issue the host leaves the state as it is (60_exceptions.md R267). -/
theorem hostStep_nil (s : State) (h : s.program = []) : hostStep s = s := by
  unfold hostStep
  rw [h]

/-- The host issues the event at the head of its program (44_control.md R244). -/
theorem hostStep_cons (s : State) (e : HostEvent) (rest : List HostEvent) (h : s.program = e :: rest) :
    hostStep s = hostEvent e { s with program := rest } := by
  unfold hostStep
  rw [h]

/-- With no job the host moves. -/
theorem step_idle (s : State) (h : s.job = none) : step s = .next (hostStep s) := by
  unfold step machineStep
  rw [h]

/-- With a job, and the engine next, the engine moves (44_control.md R241). -/
theorem step_engine (s : State) (j : Job) (h : s.job = some j) (he : engineNext s = true) : step s = engineStep j s := by
  unfold step machineStep
  rw [h]
  exact if_pos he

/-- With a job, and accesses still to land, the host moves and the count goes down (44_control.md R241). -/
theorem step_spend (s : State) (j : Job) (h : s.job = some j) (he : engineNext s = false) :
    step s = .next (hostStep (spendAccess s)) := by
  unfold step machineStep
  rw [h]
  exact if_neg (Bool.eq_false_iff.1 he)

/-- Every step of the machine answers a next state, and is one of four things. -/
theorem step_cases (s : State) :
    (s.job = none ∧ step s = .next (hostStep s)) ∨
    (s.job = some .initialReset ∧ engineNext s = true ∧ step s = .next (initialReset s)) ∨
    (∃ v, s.job = some (.command v) ∧ engineNext s = true ∧
      ((∃ i, decode v = .ok i ∧ step s = .next (completeCommand (commandBody i s))) ∨
       (∃ e, decode v = .error e ∧ step s = .next (illegalCommand v s)))) ∨
    (∃ j, s.job = some j ∧ engineNext s = false ∧ step s = .next (hostStep (spendAccess s))) := by
  rcases hj : s.job with _ | j
  · exact .inl ⟨rfl, step_idle s hj⟩
  cases he : engineNext s with
  | false => exact .inr (.inr (.inr ⟨j, rfl, rfl, step_spend s j hj he⟩))
  | true =>
    rw [step_engine s j hj he]
    cases j with
    | initialReset => exact .inr (.inl ⟨rfl, rfl, rfl⟩)
    | command v =>
      refine .inr (.inr (.inl ⟨v, rfl, rfl, ?_⟩))
      unfold engineStep executeCommand
      dsimp only
      split
      · next i hd => exact .inl ⟨i, hd, exec_eq i s⟩
      · next e hd => exact .inr ⟨e, hd, rfl⟩

/-- A run of one more step. -/
theorem run_succ {s t : State} (k : Nat) (h : step s = .next t) :
    Sys2Proof.core.run (k + 1) s = Sys2Proof.core.run k t := by
  have h' : Sys2Proof.core.step s = .next t := h
  simp only [Host.Core.run, h']

/-- A predicate that the machine's shared operations and the host's events keep. `run` is the engine's whole step. -/
structure StepKept (P : State → Prop) : Prop where
  host : ∀ e t, P t → P (hostEvent e t)
  pop : ∀ t p, P t → P { t with program := p }
  spend : ∀ t, P t → P (spendAccess t)
  init : ∀ t, t.job = some .initialReset → P t → P (initialReset t)
  illegal : ∀ v t, t.job = some (.command v) → P t → P (illegalCommand v t)
  run : ∀ v i t, t.job = some (.command v) → P t → P (completeCommand (commandBody i t))

theorem StepKept.hostStep {P : State → Prop} (k : StepKept P) (s : State) (h : P s) : P (hostStep s) := by
  unfold Machine.hostStep
  split
  · exact h
  · exact k.host _ _ (k.pop _ _ h)

/-- A step keeps what its parts keep. -/
theorem StepKept.step {P : State → Prop} (k : StepKept P) {s t : State} (h : P s) (hs : step s = .next t) : P t := by
  rcases step_cases s with ⟨-, e⟩ | ⟨hj, -, e⟩ | ⟨v, hj, -, ⟨i, -, e⟩ | ⟨x, -, e⟩⟩ | ⟨j, hj, -, e⟩ <;>
    rw [e] at hs <;> injection hs with hs <;> subst hs
  · exact k.hostStep _ h
  · exact k.init _ hj h
  · exact k.run _ _ _ hj h
  · exact k.illegal _ _ hj h
  · exact k.hostStep _ (k.spend _ h)

end Sys2Proof.Machine
end

