-- ==== Sys2Proof/Laws/Bus.lean ====
section
/-! SUPPORT. What the register map gives for a word index addr[11:2], said once (20_memory.md R61). -/

namespace Sys2Proof.Machine

/-- The map below 0x100 (R61). -/
theorem regAt_control (prm : Params) (a : BusAddr) (h : (a.extractLsb' 2 10).toNat < 64) :
    regAt prm a = controlReg (a.extractLsb' 2 10).toNat := if_pos h

/-- PB (R61). -/
theorem regAt_pb (prm : Params) (a : BusAddr) (i : Nat) (h : (a.extractLsb' 2 10).toNat = 64 + i) (hi : i < prm.pbDepth)
    (hd : prm.pbDepth ≤ 64) : regAt prm a = .pb i := by
  unfold regAt
  simp only [h]
  rw [if_neg (by omega), if_pos (by omega), if_pos (by omega)]
  rw [Nat.add_sub_cancel_left]

/-- XLAT (R61). -/
theorem regAt_xlat (prm : Params) (a : BusAddr) (i : Nat) (h : (a.extractLsb' 2 10).toNat = 256 + i)
    (hi : i < prm.xlatDepth) (hd : prm.xlatDepth ≤ 256) : regAt prm a = .xlat i := by
  unfold regAt
  simp only [h]
  rw [if_neg (by omega), if_neg (by omega), if_neg (by omega), if_pos (by omega), if_pos (by omega)]
  rw [Nat.add_sub_cancel_left]

/-- No control register stands at the word indices 15 and 26 to 63 (R61, R62). -/
theorem controlReg_unmapped (x : Nat) (h : x = 15 ∨ 26 ≤ x) : controlReg x = .unmapped := by
  unfold controlReg
  split <;> first | rfl | omega

/-- The addresses the map does not list (R62). -/
theorem regAt_unmapped (prm : Params) (a : BusAddr) (x : Nat) (hx : (a.extractLsb' 2 10).toNat = x)
    (h : x = 15 ∨ 26 ≤ x ∧ x < 64 ∨ 64 + prm.pbDepth ≤ x ∧ x < 256 ∨ 256 + prm.xlatDepth ≤ x) :
    regAt prm a = .unmapped := by
  unfold regAt
  simp only [hx]
  split
  · exact controlReg_unmapped x (by omega)
  · repeat' split
    all_goals first | rfl | omega

/-- The word index of an aligned address. -/
theorem wordIndex_ofNat (x : Nat) (h : x < 1024) : ((BitVec.ofNat 12 (4 * x)).extractLsb' 2 10).toNat = x := by
  simp only [BitVec.extractLsb'_toNat, BitVec.toNat_ofNat, Nat.shiftRight_eq_div_pow]
  omega

/-- ERR.ADDR of a dropped write (60_exceptions.md R253). -/
theorem wordAddr_eq (a : BusAddr) : wordAddr a = BitVec.ofNat 12 (4 * (a.extractLsb' 2 10).toNat) := by
  apply BitVec.eq_of_toNat_eq
  have := (a.extractLsb' 2 10).isLt
  simp only [wordAddr, BitVec.toNat_append, BitVec.toNat_ofNat, Nat.shiftLeft_eq]
  rw [Nat.zero_mod, Nat.or_zero]
  omega

/-- An accepted write (R64). -/
theorem memWrite_idle (a : BusAddr) (v : Word) (s : State) (h : s.status.busy = false) :
    memWrite a v s = writeReg s v (regAt s.params a) := by
  unfold memWrite
  dsimp only
  rw [h]
  rfl

end Sys2Proof.Machine
end

