-- ==== Sys2Proof/Laws/Decode.lean ====
section
/-! SUPPORT. What the decoder answers, in terms of the table's rows (44_control.md R240, 30_encoding.md R99). -/

namespace Sys2Proof

/-- A word that decodes matches a row of the table, and is that row's command. -/
theorem decode_ok {v : Word} {i : Instr} (h : decode v = .ok i) :
    ∃ r ∈ opcodeTable, v &&& r.mask = r.pattern ∧ i = r.command v := by
  unfold decode at h
  split at h
  · next r hr =>
    injection h with h
    exact ⟨r, List.mem_of_find?_eq_some hr, by simpa [Row.accepts] using List.find?_some hr, h.symm⟩
  · cases h

/-- A word is refused exactly where no row matches it, with the reason `illegalReason` names. -/
theorem decode_error_iff (v : Word) (e : Illegal) :
    decode v = .error e ↔ (∀ r ∈ opcodeTable, ¬ v &&& r.mask = r.pattern) ∧ illegalReason v = e := by
  unfold decode
  split
  · next r hr =>
    simp only [reduceCtorEq, false_iff, not_and]
    intro h
    exact absurd (by simpa [Row.accepts] using List.find?_some hr) (h r (List.mem_of_find?_eq_some hr))
  · next hr =>
    rw [List.find?_eq_none] at hr
    constructor
    · intro h
      injection h with h
      exact ⟨fun r hm => by simpa [Row.accepts] using hr r hm, h⟩
    · rintro ⟨-, rfl⟩
      rfl

/-- A word is known from its fixed bits (those of a row's mask) and its operand bits. -/
theorem eq_of_row (v m p e : Word) (h : v &&& m = p)
    (he : ∀ i < 32, e.getLsbD i = if m.getLsbD i = true then p.getLsbD i else v.getLsbD i) : e = v := by
  apply BitVec.eq_of_getLsbD_eq
  intro i hi
  rw [he i hi, ← h, BitVec.getLsbD_and]
  split <;> simp_all

/-- OP as a mask and as a field. -/
theorem op_mask_iff (v : Word) (k : BitVec 4) : v &&& 0xF#32 = k.setWidth 32 ↔ v.extractLsb' 0 4 = k := by
  constructor
  · intro h
    have h' : (v &&& 0xF#32).extractLsb' 0 4 = (k.setWidth 32 : Word).extractLsb' 0 4 := by rw [h]
    have e : (k.setWidth 32 : Word).extractLsb' 0 4 = k := by
      clear h h'
      revert k
      decide
    rw [e] at h'
    rw [← h']
    ext i hi
    interval_cases i <;> simp
  · rintro rfl
    apply BitVec.eq_of_getLsbD_eq
    intro i hi
    interval_cases i <;> simp

end Sys2Proof
end

