-- ==== Sys2Proof/Laws/PerInstr.lean ====
section
/-! SUPPORT. Facts about each command as syntax, one lemma per constructor of `Instr`. -/

namespace Sys2Proof.Laws.EncodeInRow

/-- The command's word matches a row of opcode_table.json, and that row's operand fields give the command back
(30_encoding.md R92 to R98, R102). -/
def Statement (i : Instr) : Prop := ∃ r ∈ opcodeTable, r.accepts (encode i) = true ∧ r.command (encode i) = i

theorem nop : Statement .nop := ⟨_, .head _, by decide, by decide⟩

theorem decode (d : Bool) : Statement (.decode d) :=
  ⟨_, .tail _ (.head _), by cases d <;> decide, by cases d <;> decide⟩

theorem decodeK (d : Bool) : Statement (.decodeK d) :=
  ⟨_, .tail _ (.tail _ (.head _)), by cases d <;> decide, by cases d <;> decide⟩

theorem decodeJ (d : Bool) : Statement (.decodeJ d) :=
  ⟨_, .tail _ (.tail _ (.tail _ (.head _))), by cases d <;> decide, by cases d <;> decide⟩

theorem dispatch : Statement .dispatch := ⟨_, .tail _ (.tail _ (.tail _ (.tail _ (.head _)))), by decide, by decide⟩

theorem apply (c : Byte) (p a : Bool) : Statement (.apply c p a) :=
  ⟨_, .tail _ (.tail _ (.tail _ (.tail _ (.tail _ (.head _))))), by cases p <;> cases a <;> revert c <;> decide,
    by cases p <;> cases a <;> revert c <;> decide⟩

theorem mreset : Statement .mreset :=
  ⟨_, .tail _ (.tail _ (.tail _ (.tail _ (.tail _ (.tail _ (.head _)))))), by decide, by decide⟩

theorem rearm : Statement .rearm :=
  ⟨_, .tail _ (.tail _ (.tail _ (.tail _ (.tail _ (.tail _ (.tail _ (.head _))))))), by decide, by decide⟩

theorem lookup (c : Byte) (sh : Bool) : Statement (.lookup c sh) :=
  ⟨_, .tail _ (.tail _ (.tail _ (.tail _ (.tail _ (.tail _ (.tail _ (.tail _ (.head _)))))))),
    by cases sh <;> revert c <;> decide, by cases sh <;> revert c <;> decide⟩

end Sys2Proof.Laws.EncodeInRow
end

