-- ==== Sys2Proof/Tests/Slice0.lean ====
section
/-! SUPPORT. The model's own tests: the checks of WellFormed, words of the spec's formats, vectors of 95_test_vectors.md
(V-…), and for every obligation with hypotheses a witness that meets them together. -/

open Sys2Proof Sys2Proof.Machine

namespace Sys2Proof.Tests

/-! ### Small states -/

/-- After power-on reset and the initial MRESET, nothing in flight. -/
def idle : State := { State.reset with status := { Status.reset with busy := false }, job := none, hold := 0 }

/-- The idle state with a command word accepted, executed by the next step. -/
def pending (v : Word) : State := placeCommand v idle

/-- A state in which the host's next and last event is e. -/
def issuing (s : State) (e : HostEvent) : State := { s with program := [e] }

/-- Bytes of memory from a list, the zero bytes left out. -/
def cells (l : List (Nat × Nat)) : Memory :=
  (l.map fun x => (x.1, BitVec.ofNat 8 x.2)).filter fun x => x.2 != unlistedByte

/-- The bytes of a pulse train in PB. -/
def train (l : List Nat) : List (Nat × Nat) :=
  l.zipIdx.flatMap fun x => [(pbAddr x.2, x.1 % 256), (pbAddr x.2 + 1, x.1 / 256)]

/-- The bytes of a table in XLAT. -/
def table (l : List Nat) : List (Nat × Nat) :=
  l.zipIdx.flatMap fun x =>
    [(xlatAddr x.2, x.1 % 256), (xlatAddr x.2 + 1, x.1 / 256 % 256), (xlatAddr x.2 + 2, x.1 / 65536 % 256),
     (xlatAddr x.2 + 3, x.1 / 16777216)]

/-- The idle state with a frame handed over and a table loaded. -/
def loaded (fr tab : List Nat) : State :=
  { idle with
    pbCount := BitVec.ofNat 8 fr.length, status := { idle.status with frameReady := true }
    mem := cells (train fr ++ table tab) }

/-- A keyboard train from its 14 spaces (95_test_vectors.md, conventions). -/
def keyTrain (spaces : List Nat) : List Nat := [3000, 1500] ++ spaces.flatMap fun x => [500, x]

/-- V-K1: payload 0x05020021. -/
def vK1 : List Nat := keyTrain [1000, 500, 1500, 500, 500, 500, 500, 500, 1500, 500, 500, 500, 1000, 1000]
/-- V-C2: payload 0x05020020, one bit flipped. -/
def vC2 : List Nat := keyTrain [500, 500, 1500, 500, 500, 500, 500, 500, 1500, 500, 500, 500, 1000, 1000]
/-- V-C6: payload 0x0900FC10, JOYKB. -/
def vC6 : List Nat := keyTrain [500, 500, 1000, 500, 500, 2000, 2000, 2000, 500, 500, 500, 500, 1000, 1500]
/-- V-C7: payload 0x02000000, JOYKB, all zero. -/
def vC7 : List Nat := keyTrain [500, 500, 500, 500, 500, 500, 500, 500, 500, 500, 500, 500, 1500, 500]
/-- V-J1: data 0x0A95. -/
def vJ1 : List Nat :=
  [2400, 1200, 600, 600, 600, 600, 600, 600, 1200, 1200, 1200, 1200, 1200, 1200, 600, 600, 1200, 1200, 1200, 1200, 1200]
/-- V-J4: V-J1 with an unclassifiable pulse 3. -/
def vJ4 : List Nat := vJ1.set 3 900
/-- The durations of a train. -/
def durations (l : List Nat) : List Dur := l.map (BitVec.ofNat 16)

/-- The table of V-L1 to V-L6. -/
def vL : State :=
  { loaded [] [0x8001071E, 0x80063B1E, 0x8003051F, 0x00000620] with
    ctrl := { Ctrl.reset with modShiftMask := 0x22#8 }, status := idle.status }

/-- A KEY event of MOD 0 and CODE 0x21 with the table of program P1. -/
def keyed (ev0 : Word) (tab : List Nat) : State :=
  { loaded [] tab with ev0 := ev0, ev1 := 0x00000021#32, status := idle.status }

/-- A field of the next state. -/
def after {α : Type} (o : Host.Outcome State Fault Refusal) (f : State → α) : Option α :=
  match o with
  | .next t => some (f t)
  | .fault _ => none
  | .refused _ => none

/-! ### WellFormed: each check refuses an ill-formed term -/

theorem test_wf_code : AsmCode.wf (.num 256) = false ∧ AsmCode.wf (.num 255) = true := by decide
theorem test_wf_apply_code : AsmLine.wf (.apply (.num 256) 1 0) = false := by decide
theorem test_wf_apply_p : AsmLine.wf (.apply .caps 2 0) = false := by decide
theorem test_wf_apply_a : AsmLine.wf (.apply .caps 1 2) = false := by decide
theorem test_wf_apply : AsmLine.wf (.apply (.num 255) 1 1) = true := by decide
theorem test_wf_lookup_code : AsmLine.wf (.lookup (.num 300) 0) = false := by decide
theorem test_wf_lookup_s : AsmLine.wf (.lookup (.num 1) 2) = false := by decide
theorem test_wf_wr_addr : AsmLine.wf (.wr 0x1000 0) = false := by decide
theorem test_wf_wr_value : AsmLine.wf (.wr 0x014 0x100000000) = false := by decide
theorem test_wf_rd_addr : AsmLine.wf (.rd 0x1000) = false ∧ AsmLine.wf (.rd 0xFFF) = true := by decide
theorem test_wf_press : AsmLine.wf (.press (.num 256)) = false ∧ AsmLine.wf (.release (.num 256)) = false ∧
    AsmLine.wf (.pressAs (.num 256)) = false ∧ AsmLine.wf (.releaseAs (.num 256)) = false := by decide
theorem test_wf_params_default : Params.default.wf = true := by decide
theorem test_wf_params_pbDepth : { Params.default with pbDepth := 32 }.wf = false ∧
    { Params.default with pbDepth := 65 }.wf = false ∧ { Params.default with pbDepth := 33 }.wf = true := by decide
theorem test_wf_params_xlatDepth : { Params.default with xlatDepth := 0 }.wf = false ∧
    { Params.default with xlatDepth := 257 }.wf = false ∧ { Params.default with xlatDepth := 1 }.wf = true := by decide
theorem test_wf_params_codes_low : { Params.default with codeCaps := 0x3F#8 }.wf = false ∧
    { Params.default with codeRestore := 0x3F#8 }.wf = false ∧ { Params.default with codeReset := 0x3F#8 }.wf = false := by
  decide
theorem test_wf_params_codes_distinct : { Params.default with codeCaps := 0x41#8 }.wf = false ∧
    { Params.default with codeCaps := 0x42#8 }.wf = false ∧ { Params.default with codeRestore := 0x42#8 }.wf = false := by
  decide
theorem test_wf_params_coords : { Params.default with lshiftCoord := 0x34#6 }.wf = false := by decide
theorem test_wf_params_clocks : { Params.default with tSu := 0 }.wf = false ∧ { Params.default with tStb := 0 }.wf = false ∧
    { Params.default with tHd := 0 }.wf = false ∧ { Params.default with tRst := 0 }.wf = false := by decide
/-- No term of `Instr` is ill formed: its fields' widths are its types (30_encoding.md R102). -/
theorem test_wf_instr : Instr.wf (.apply 0xFF#8 true true) = true ∧ Instr.wf (.lookup 0xFF#8 true) = true := by decide

/-! ### Decode: words written out from the formats of 30_encoding.md R92 to R98 -/

theorem test_decode_nop : decode 0b00000000000000000000000000000000#32 = .ok .nop := by decide
theorem test_decode_decode : decode 0b00000000000000000000000000010001#32 = .ok (.decode true) := by decide
theorem test_decode_decodeK : decode 0b00000000000000000000000000100001#32 = .ok (.decodeK false) := by decide
theorem test_decode_decodeJ : decode 0b00000000000000000000000001010001#32 = .ok (.decodeJ true) := by decide
theorem test_decode_dispatch : decode 0b00000000000000000000000000000010#32 = .ok .dispatch := by decide
theorem test_decode_apply : decode 0b00000000000000101000000100000011#32 = .ok (.apply 0x81#8 false true) := by decide
theorem test_decode_mreset : decode 0b00000000000000000000000000000100#32 = .ok .mreset := by decide
theorem test_decode_rearm : decode 0b00000000000000000000000000000101#32 = .ok .rearm := by decide
theorem test_decode_lookup : decode 0b00000000000000011000000100000110#32 = .ok (.lookup 0x81#8 true) := by decide
/-- V-X4 to V-X12: each illegal word with its reason (R99). -/
theorem test_decode_illegal : decode 0x00000007#32 = .error .reservedOpcode ∧ decode 0x0000000F#32 = .error .reservedOpcode ∧
    decode 0x00000061#32 = .error .reservedMode ∧ decode 0x00000010#32 = .error .reservedBits ∧
    decode 0x00040003#32 = .error .reservedBits ∧ decode 0x00020006#32 = .error .reservedBits ∧
    decode 0x80000001#32 = .error .reservedBits ∧ decode 0x00000012#32 = .error .reservedBits := by decide
theorem test_decode_table_word : decodeTableWord 32 0x00034103 = some (.apply 0x41#8 true true) ∧
    decodeTableWord 32 0x00000061 = none := by decide
/-- Words of section 8 of 95_test_vectors.md from their assembler lines (R100, R101). -/
theorem test_assemble : assemble Params.default (.press .caps) = some (.write 0x014#12 0x00014003#32) ∧
    assemble Params.default (.releaseAs (.num 0x11)) = some (.write 0x014#12 0x00021103#32) ∧
    assemble Params.default (.decode true) = some (.write 0x014#12 0x00000011#32) ∧
    assemble Params.default .toggleCaps = some (.write 0x014#12 0x00014003#32) ∧
    assemble Params.default (.lookup (.num 0x1E) 1) = some (.write 0x014#12 0x00011E06#32) ∧
    assemble Params.default (.apply (.num 256) 0 0) = none := by decide

/-! ### Vectors of 95_test_vectors.md, one command each -/

/-- V-X1. -/
theorem test_nop : after (exec .nop idle) (fun t => statusWord t.status) = some 0x20#32 := by decide
/-- V-C1, V-C2. -/
theorem test_decode_key : after (exec (.decode false) (loaded vK1 []))
    (fun t => (t.diag, t.ev0, t.ev1, t.evRaw, statusWord t.status)) =
      some (0x1E01#32, 0x00020001#32, 0x00000021#32, 0x05020021#32, 0x24#32) := by decide +kernel
theorem test_decode_checksum : after (exec (.decode true) (loaded vC2 []))
    (fun t => (t.diag, t.ev0, t.evRaw, errWord t.err, statusWord t.status)) =
      some (0x1E01#32, 0#32, 0x05020020#32, 0x12#32, 0x28#32) := by decide +kernel
/-- V-C6. -/
theorem test_decodeK_joykb : after (exec (.decodeK true) (loaded vC6 []))
    (fun t => (t.ev0, t.ev1, t.evRaw, t.err.code)) = some (0x00000003#32, 0x000004FC#32, 0x0900FC10#32, 0#4) := by
  decide +kernel
/-- V-D8. -/
theorem test_decodeK_reject : after (exec (.decodeK false) (loaded vJ1 []))
    (fun t => (t.diag, errWord t.err, statusWord t.status)) = some (0x00000003#32, 0x11#32, 0x28#32) := by decide +kernel
/-- V-J1. -/
theorem test_decodeJ_joy : after (exec (.decodeJ false) (loaded vJ1 []))
    (fun t => (t.diag, t.ev0, t.ev1, t.evRaw)) = some (0x00150010#32, 0x00000402#32, 0x00000A15#32, 0x00000A95#32) := by
  decide +kernel
/-- V-J4. -/
theorem test_decodeJ_class : after (exec (.decodeJ false) (loaded vJ4 [])) (fun t => (t.diag, errWord t.err)) =
    some (0x00030080#32, 0x11#32) := by decide +kernel
/-- Program P1. -/
theorem test_dispatch_press : after (exec .dispatch (keyed 0x00020001#32 [0x80000A21]))
    (fun t => (t.lookupRes, t.matrix, t.trace)) = some (0x8000000A#32, 0x400#64, [.xwrite 0x0A#6 true]) := by decide +kernel
/-- V-L10. -/
theorem test_dispatch_miss : after (exec .dispatch (keyed 0x00020001#32 [])) (fun t => (t.lookupRes, errWord t.err)) =
    some (0#32, 0x23#32) := by decide +kernel
/-- V-A6, from caps = 1. -/
theorem test_apply_autoshift :
    after (exec (.apply 0x11#8 true true) { idle with caps := true, matrix := 0x8000#64 })
      (fun t => (t.trace, latchWord t, t.matrix)) =
      some ([.xwrite 0x34#6 true, .xwrite 0x11#6 true], 0x1#32, 0x0010000000028000#64) := by decide +kernel
/-- V-A9h. -/
theorem test_apply_reserved : after (exec (.apply 0x43#8 true false) idle) (fun t => (errWord t.err, t.trace)) =
    some (0x39#32, []) := by decide
/-- V-A11. -/
theorem test_mreset : after (exec .mreset { idle with caps := true, matrix := 0x8000#64 })
    (fun t => (t.trace.length, latchWord t, t.matrix)) = some (66, 0#32, 0#64) := by decide +kernel
/-- Program P3, end state: after an MRESET the pins equal the initial state's, that after the initial MRESET. -/
theorem test_initial_pins : (initialReset State.reset).pins = pinsAfterInit Pins.reset ∧
    after (exec .mreset (initialReset State.reset)) (fun t => t.pins) = some (initialReset State.reset).pins := by
  decide +kernel
/-- V-X3. -/
theorem test_rearm : after (exec .rearm (loaded [] [])) (fun t => (statusWord t.status, t.trace)) =
    some (0x20#32, [.rearm]) := by decide
/-- V-L2. -/
theorem test_lookup_hit : after (exec (.lookup 0x1E#8 true) vL) (fun t => t.lookupRes) = some 0x8301063B#32 := by
  decide +kernel
/-- V-L4. -/
theorem test_lookup_miss : after (exec (.lookup 0x1F#8 true) vL) (fun t => t.lookupRes) = some 0x01000000#32 := by
  decide +kernel
/-- V-B12 and V-B13, the writes while BUSY = 1. -/
theorem test_busy_writes : errWord (memWrite 0x004#12 0#32 (pending 4#32)).err = 0x4F8#32 ∧
    errWord (memWrite 0x014#12 0#32 (memWrite 0x004#12 0#32 (pending 4#32))).err = 0x006#32 := by decide
/-- V-B9, V-B10. -/
theorem test_bus : readReg (memWrite 0x102#12 0x55#32 idle) (.pb 0) = 0x55#32 ∧
    statusWord (statusW1C { Status.reset with busy := false, frameReady := true, evNew := true, err := true, errOvf := true,
                                              done := true } 0x14#32) = 0x2A#32 := by decide

/-! ### Witnesses: the hypotheses of each obligation, met together -/

theorem witness_DecodeInvertsEncode : Instr.wf (.apply 0xFF#8 true true) = true := by decide

theorem witness_EncodeInvertsDecode : decode 0x0003FF03#32 = .ok (.apply 0xFF#8 true true) := by decide

theorem witness_StepRunsTheDecodedCommand :
    (pending 0x00034103#32).job = some (.command 0x00034103#32) ∧
    decode 0x00034103#32 = .ok (.apply 0x41#8 true true) ∧ Instr.wf (.apply 0x41#8 true true) = true ∧
    engineNext (pending 0x00034103#32) = true := by decide

theorem witness_IllegalWordOnlyRecordsItsError :
    (pending 0x61#32).job = some (.command 0x61#32) ∧ decode 0x61#32 = .error .reservedMode ∧
    engineNext (pending 0x61#32) = true := by decide

/-- Each clause: nothing to issue, a read, a write, a WAIT with BUSY 0 and with BUSY 1, a power-on reset. -/
theorem witness_HostAccessesTakeEffectInOrder :
    (idle.job = none ∧ idle.program = []) ∧
    (issuing idle (.read 0x008#12)).job = none ∧ (issuing idle (.read 0x008#12)).program = .read 0x008#12 :: [] ∧
    (issuing idle (.write 0x014#12 0#32)).program = .write 0x014#12 0#32 :: [] ∧
    ((issuing idle .wait).program = .wait :: [] ∧ (issuing idle .wait).status.busy = false) ∧
    ((issuing { idle with status := Status.reset } .wait).job = none ∧
      (issuing { idle with status := Status.reset } .wait).program = .wait :: [] ∧
      (issuing { idle with status := Status.reset } .wait).status.busy = true) ∧
    (issuing idle .powerOnReset).program = .powerOnReset :: [] := by decide

/-- The engine next in each of its three ways, and each clause of an access that lands with one more to come. -/
theorem witness_HostAccessMayLandBeforeExecute :
    ((pending 4#32).job = some (.command 4#32) ∧ engineNext (pending 4#32) = true ∧ (pending 4#32).hold = 0) ∧
    (engineNext { pending 4#32 with hold := 1 } = true ∧ { pending 4#32 with hold := 1 }.program = []) ∧
    engineNext (issuing { pending 4#32 with hold := 1 } .wait) = true ∧
    engineNext (issuing { pending 4#32 with hold := 1 } (.read 0x010#12)) = false ∧
    (issuing { pending 4#32 with hold := 1 } (.read 0x010#12)).hold = 0 + 1 ∧
    (issuing { pending 4#32 with hold := 1 } (.read 0x010#12)).program = .read 0x010#12 :: [] ∧
    (issuing { pending 4#32 with hold := 1 } (.write 0x004#12 0#32)).program = .write 0x004#12 0#32 :: [] ∧
    (issuing { pending 4#32 with hold := 1 } .powerOnReset).program = .powerOnReset :: [] := by decide

theorem witness_EveryAcceptedCommandCompletes :
    (issuing { pending 4#32 with hold := 1 } (.write 0x004#12 0#32)).job = some (.command 4#32) ∧
    (issuing { pending 4#32 with hold := 1 } (.write 0x004#12 0#32)).status.busy = true ∧
    HostEvent.powerOnReset ∉ (issuing { pending 4#32 with hold := 1 } (.write 0x004#12 0#32)).program := by decide

/-- Both ways to a reset state. -/
theorem witness_ResetValuesAsTheSpecStates :
    (State.reset = State.reset ∨ ∃ s, State.reset = powerOnReset s) ∧
    (powerOnReset idle = State.reset ∨ ∃ s, powerOnReset idle = powerOnReset s) := ⟨.inl rfl, .inr ⟨_, rfl⟩⟩

theorem witness_InitialResetRunsInitState :
    State.reset.job = some .initialReset ∧ engineNext State.reset = true := ⟨rfl, rfl⟩

/-- The idle state meets the invariants. -/
theorem idle_paramsLegal : ParamsLegal idle := by
  unfold ParamsLegal
  decide
theorem idle_leftShift : LeftShiftHolds idle := by
  unfold LeftShiftHolds
  decide

/-- A step that has a next state, from a state that meets every invariant at once. -/
theorem witness_step_invariants :
    ParamsLegal (pending 0x00014003#32) ∧ LeftShiftHolds (pending 0x00014003#32) ∧ NoInvariantFault (pending 0x00014003#32) ∧
    BusyIffJob (pending 0x00014003#32) ∧ MemoryCanonical (pending 0x00014003#32) ∧ PinsAtRest (pending 0x00014003#32) ∧
    ArrayMirrored (pending 0x00014003#32) ∧ ReservedBitsZero (pending 0x00014003#32) ∧
    ∃ t, step (pending 0x00014003#32) = .next t := by
  refine ⟨idle_paramsLegal, idle_leftShift, ⟨rfl, by decide⟩, rfl, rfl, ⟨rfl, rfl, rfl, rfl⟩, ?_, ?_, _, rfl⟩
  · intro _ c
    simp [pending, placeCommand, idle, State.reset, arrayClosed]
  · refine ⟨?_, ?_, ?_, ?_, ?_⟩ <;> decide

theorem witness_StepKeepsLeftShiftInvariant :
    ParamsLegal (pending 0x00014003#32) ∧ LeftShiftHolds (pending 0x00014003#32) ∧
    ∃ t, step (pending 0x00014003#32) = .next t :=
  ⟨idle_paramsLegal, idle_leftShift, _, rfl⟩

theorem witness_StepNeverRecordsInvariantViolation :
    ParamsLegal (pending 0x00014003#32) ∧ LeftShiftHolds (pending 0x00014003#32) ∧ NoInvariantFault (pending 0x00014003#32) ∧
    ∃ t, step (pending 0x00014003#32) = .next t :=
  have h := witness_step_invariants
  ⟨h.1, h.2.1, h.2.2.1, h.2.2.2.2.2.2.2.2⟩

theorem witness_StepKeepsBusyIffJob :
    BusyIffJob (pending 0x00014003#32) ∧
    ∃ t, step (pending 0x00014003#32) = .next t :=
  have h := witness_step_invariants
  ⟨h.2.2.2.1, h.2.2.2.2.2.2.2.2⟩

theorem witness_StepKeepsMemoryCanonical :
    MemoryCanonical (pending 0x00014003#32) ∧
    ∃ t, step (pending 0x00014003#32) = .next t :=
  have h := witness_step_invariants
  ⟨h.2.2.2.2.1, h.2.2.2.2.2.2.2.2⟩

theorem witness_StepKeepsPinsAtRest :
    PinsAtRest (pending 0x00014003#32) ∧
    ∃ t, step (pending 0x00014003#32) = .next t :=
  have h := witness_step_invariants
  ⟨h.2.2.2.2.2.1, h.2.2.2.2.2.2.2.2⟩

theorem witness_StepKeepsArrayMirrored :
    BusyIffJob (pending 0x00014003#32) ∧ ArrayMirrored (pending 0x00014003#32) ∧
    ∃ t, step (pending 0x00014003#32) = .next t :=
  have h := witness_step_invariants
  ⟨h.2.2.2.1, h.2.2.2.2.2.2.1, h.2.2.2.2.2.2.2.2⟩

theorem witness_StepKeepsReservedBitsZero :
    ReservedBitsZero (pending 0x00014003#32) ∧
    ∃ t, step (pending 0x00014003#32) = .next t :=
  have h := witness_step_invariants
  ⟨h.2.2.2.2.2.2.2.1, h.2.2.2.2.2.2.2.2⟩

theorem witness_MresetAndResetCodeEnterTheInitialState : ParamsLegal idle := idle_paramsLegal

theorem witness_CapsAndResetReleaseDoNothing :
    ParamsLegal idle ∧ LeftShiftHolds idle ∧ (0x40#8 = idle.params.codeCaps ∨ 0x40#8 = idle.params.codeReset) ∧
    (0x42#8 = idle.params.codeCaps ∨ 0x42#8 = idle.params.codeReset) :=
  ⟨idle_paramsLegal, idle_leftShift, by decide, by decide⟩

theorem witness_RestoreCodeDrivesTheLine : ParamsLegal idle ∧ LeftShiftHolds idle := ⟨idle_paramsLegal, idle_leftShift⟩

theorem witness_ShiftCoordinatesSetTheirLatches : ParamsLegal idle ∧ LeftShiftHolds idle :=
  ⟨idle_paramsLegal, idle_leftShift⟩

/-- At both ends of the coordinates. -/
theorem witness_OrdinaryKeyWithAutoShift :
    ParamsLegal idle ∧ LeftShiftHolds idle ∧
    (0x00#6 ≠ idle.params.lshiftCoord ∧ 0x00#6 ≠ idle.params.rshiftCoord) ∧
    (0x3F#6 ≠ idle.params.lshiftCoord ∧ 0x3F#6 ≠ idle.params.rshiftCoord) :=
  ⟨idle_paramsLegal, idle_leftShift, by decide, by decide⟩

/-- The first and the last unassigned code. -/
theorem witness_UnassignedCodeIsRecorded :
    ¬ AssignedCode idle.params 0x43#8 ∧ ¬ AssignedCode idle.params 0xFF#8 := by
  unfold AssignedCode
  decide

theorem witness_SecondPressChangesNoSwitch :
    ParamsLegal idle ∧ 0x0A#8 ≠ idle.params.codeCaps ∧
    ∃ t u, exec (.apply 0x0A#8 true true) idle = .next t ∧ exec (.apply 0x0A#8 true true) t = .next u :=
  ⟨idle_paramsLegal, by decide, _, _, rfl, rfl⟩

theorem witness_PinEventsHaveTheirWaveforms :
    Pins.reset.strobe = false ∧ Pins.reset.xrst = false ∧ Pins.reset.rearm = false := by decide

/-- The first hit of V-L1 at index 0, V-L2 at index 1, the miss of V-L3. -/
theorem witness_LookupReportsFirstApplicable :
    FirstHit vL 0x1E#8 false 0 ∧ FirstHit vL 0x1E#8 true 1 ∧ NoHit vL 0x1F#8 false := by
  refine ⟨((lookupCore_some _ _ _ 0 0x8001071E#32).1 ?_).1, ((lookupCore_some _ _ _ 1 0x80063B1E#32).1 ?_).1,
    (lookupCore_none _ _ _).1 ?_⟩ <;> decide +kernel

theorem witness_DispatchIgnoresOtherKinds :
    idle.ev0.extractLsb' 0 2 ≠ 1#2 ∧ { idle with ev0 := 3#32 }.ev0.extractLsb' 0 2 ≠ 1#2 := by decide

/-- V-L10. -/
theorem witness_DispatchUnknownKeyIsRecorded :
    (keyed 0x00020001#32 []).ev0.extractLsb' 0 2 = 1#2 ∧
    NoHit (keyed 0x00020001#32 []) ((keyed 0x00020001#32 []).ev1.extractLsb' 0 8) (ShiftOf (keyed 0x00020001#32 [])) := by
  refine ⟨by decide +kernel, (lookupCore_none _ _ _).1 ?_⟩
  decide +kernel

/-- Program P1. -/
theorem keyed_hit : FirstHit (keyed 0x00020001#32 [0x80000A21]) 0x21#8 false 0 := by
  refine ((lookupCore_some _ _ _ 0 0x80000A21#32).1 ?_).1
  decide +kernel

theorem witness_DispatchWritesOneCrosspoint :
    ParamsLegal (keyed 0x00020001#32 [0x80000A21]) ∧ LeftShiftHolds (keyed 0x00020001#32 [0x80000A21]) ∧
    (keyed 0x00020001#32 [0x80000A21]).ev0.extractLsb' 0 2 = 1#2 ∧
    FirstHit (keyed 0x00020001#32 [0x80000A21]) ((keyed 0x00020001#32 [0x80000A21]).ev1.extractLsb' 0 8)
      (ShiftOf (keyed 0x00020001#32 [0x80000A21])) 0 ∧
    (xlatEntry (keyed 0x00020001#32 [0x80000A21]).mem 0).extractLsb' 8 8 = (0x0A#6).setWidth 8 ∧
    (xlatEntry (keyed 0x00020001#32 [0x80000A21]).mem 0).getLsbD 18 = false ∧
    0x0A#6 ≠ (keyed 0x00020001#32 [0x80000A21]).params.lshiftCoord ∧
    0x0A#6 ≠ (keyed 0x00020001#32 [0x80000A21]).params.rshiftCoord :=
  ⟨idle_paramsLegal, idle_leftShift, by decide +kernel, keyed_hit, by decide +kernel, by decide +kernel, by decide +kernel,
    by decide +kernel⟩

/-- V-L-style entry whose OUT is unassigned. -/
theorem keyed_hit_unassigned : FirstHit (keyed 0x00020001#32 [0x80004321]) 0x21#8 false 0 := by
  refine ((lookupCore_some _ _ _ 0 0x80004321#32).1 ?_).1
  decide +kernel

/-- An entry whose OUT is a coordinate, and one whose OUT is unassigned. -/
theorem witness_DispatchActsAsApplyOfTheEntry :
    (ParamsLegal (keyed 0x00020001#32 [0x80000A21]) ∧ LeftShiftHolds (keyed 0x00020001#32 [0x80000A21]) ∧
      (keyed 0x00020001#32 [0x80000A21]).ev0.extractLsb' 0 2 = 1#2 ∧
      FirstHit (keyed 0x00020001#32 [0x80000A21]) ((keyed 0x00020001#32 [0x80000A21]).ev1.extractLsb' 0 8)
        (ShiftOf (keyed 0x00020001#32 [0x80000A21])) 0 ∧
      AssignedCode (keyed 0x00020001#32 [0x80000A21]).params
        ((xlatEntry (keyed 0x00020001#32 [0x80000A21]).mem 0).extractLsb' 8 8)) ∧
    (keyed 0x00020001#32 [0x80004321]).ev0.extractLsb' 0 2 = 1#2 ∧
    FirstHit (keyed 0x00020001#32 [0x80004321]) ((keyed 0x00020001#32 [0x80004321]).ev1.extractLsb' 0 8)
      (ShiftOf (keyed 0x00020001#32 [0x80004321])) 0 ∧
    ¬ AssignedCode (keyed 0x00020001#32 [0x80004321]).params
      ((xlatEntry (keyed 0x00020001#32 [0x80004321]).mem 0).extractLsb' 8 8) := by
  refine ⟨⟨idle_paramsLegal, idle_leftShift, by decide +kernel, keyed_hit, .inl ?_⟩, by decide +kernel,
    keyed_hit_unassigned, ?_⟩ <;> (try unfold AssignedCode) <;> decide +kernel

/-- V-K1: the 14 pairs of the accepted frame, the last clause with k = 14. -/
theorem vK1_pairs : ∀ j < 14, KeyboardPair Timing.reset (durations vK1) j
    ([1#2, 0#2, 2#2, 0#2, 0#2, 0#2, 0#2, 0#2, 2#2, 0#2, 0#2, 0#2, 1#2, 1#2].getD j 0#2) := by
  unfold KeyboardPair LeastBand
  decide +kernel

/-- Each clause at a boundary: too short by one; both headers; the first and the last pair's mark and space missing or
failing; all 14 pairs. -/
theorem witness_KeyboardDecoderAnswers :
    ((durations vK1).take 16).length < 17 ∧ 17 ≤ ((durations vK1).take 17).length ∧
    inWindow (pulse (durations (vK1.set 0 3101)) 0) Timing.reset.khm = false ∧
    (inWindow (pulse (durations (vK1.set 1 1601)) 0) Timing.reset.khm = true ∧
      inWindow (pulse (durations (vK1.set 1 1601)) 1) Timing.reset.khs = false) ∧
    KeyboardHeader Timing.reset (durations vK1) ∧
    (inWindow (pulse (durations (vK1.set 2 601)) 2) Timing.reset.kbm = false ∧
      NoBand Timing.reset (pulse (durations (vK1.set 3 601)) 3)) ∧
    (((durations vK1).take 28).length ≤ 2 + 2 * 13 ∧ ((durations vK1).take 29).length = 3 + 2 * 13 ∧
      inWindow (pulse (durations (vK1.set 28 399)) (2 + 2 * 13)) Timing.reset.kbm = false ∧
      NoBand Timing.reset (pulse (durations (vK1.set 29 399)) (3 + 2 * 13))) ∧
    (17 ≤ (durations vK1).length ∧ ∃ g : Nat → BitVec 2, ∀ j < 14, KeyboardPair Timing.reset (durations vK1) j (g j)) := by
  refine ⟨?_, ?_, ?_, ?_, ?_, ?_, ?_, ?_, _, vK1_pairs⟩ <;> (try unfold KeyboardHeader) <;> (try unfold NoBand) <;> decide +kernel

/-- V-J14: SKIP 0 at first, a short pulse and fifteen long ones. -/
def vJ14 : List Nat := 2400 :: 600 :: List.replicate 15 1200
/-- V-J3: thirty-two short pulses. -/
def vJ3 : List Nat := 2400 :: List.replicate 32 600

/-- V-J1 (21 pulses), V-J14 (17) and V-J3 (33): both ends of the range. -/
theorem test_joy_consumed :
    (joy Timing.reset Ctrl.reset (durations vJ1) Work.reset).1 = .ok 0x0A95#16 21 ∧
    (joy Timing.reset { Ctrl.reset with joySkipInit := false } (durations vJ14) Work.reset).1 = .ok 0x5555#16 17 ∧
    (joy Timing.reset Ctrl.reset (durations vJ3) Work.reset).1 = .ok 0xFFFF#16 33 := by decide +kernel

/-- V-J14 and V-J3: sixteen bits at one pulse and at two pulses each. -/
theorem vJ14_bits : ∀ k < 16, JoyBit Timing.reset (durations vJ14) (joySkip { Ctrl.reset with joySkipInit := false } k)
    (1 + k) (1 + (k + 1)) := by
  unfold JoyBit JoyLong JoyShort JoyNeither
  decide +kernel
theorem vJ3_bits : ∀ k < 16, JoyBit Timing.reset (durations vJ3) (joySkip Ctrl.reset k) (1 + 2 * k) (1 + 2 * (k + 1)) := by
  unfold JoyBit JoyLong JoyShort JoyNeither
  decide +kernel

/-- Each clause at a boundary: too short by one, the header, the first and the last bit's pulses missing or of neither
class, all sixteen bits. -/
theorem witness_JoystickDecoderAnswers :
    ((durations vJ3).take 16).length < 17 ∧ 17 ≤ ((durations vJ3).take 17).length ∧
    inWindow (pulse (durations (vJ3.set 0 2501)) 0) Timing.reset.jhm = false ∧
    inWindow (pulse (durations vJ3) 0) Timing.reset.jhm = true ∧
    (((durations vJ3).take 31).length ≤ 1 + 2 * 15 ∧ ((durations vJ3).take 32).length = 1 + 2 * 15 + 1 ∧
      joySkip Ctrl.reset 15 = true ∧ JoyShort Timing.reset (pulse (durations vJ3) (1 + 2 * 15))) ∧
    (JoyNeither Timing.reset (pulse (durations (vJ3.set 1 900)) 1) ∧
      JoyNeither Timing.reset (pulse (durations (vJ3.set 31 900)) (1 + 2 * 15)) ∧
      JoyNeither Timing.reset (pulse (durations (vJ3.set 32 900)) (1 + 2 * 15 + 1))) ∧
    (17 ≤ (durations vJ3).length ∧ ∃ E : Nat → Nat, E 0 = 1 ∧
      ∀ k < 16, JoyBit Timing.reset (durations vJ3) (joySkip Ctrl.reset k) (E k) (E (k + 1))) ∧
    (joy Timing.reset Ctrl.reset (durations vJ3) Work.reset).1 = .ok 0xFFFF#16 33 := by
  refine ⟨?_, ?_, ?_, ?_, ?_, ?_, ⟨?_, fun k => 1 + 2 * k, rfl, vJ3_bits⟩, test_joy_consumed.2.2⟩ <;>
    (try unfold JoyShort) <;> (try unfold JoyNeither) <;> decide +kernel

/-- V-C1, at the first and the last bit. -/
theorem witness_SingleBitFlipInvalidates : 0 < 28 ∧ 27 < 28 ∧ payloadValid 0x05020021#32 = true := by decide +kernel

theorem witness_DecodeWithoutFrameIsNoFrame : idle.status.frameReady = false := by decide

theorem witness_KeyFrameGivesKeyEvent :
    (loaded vK1 []).status.frameReady = true ∧ (loaded vK1 []).ctrl.kbdEn = true ∧
    (kbd (loaded vK1 []).timing (frame (loaded vK1 [])) (loaded vK1 []).work).1 = .ok 0x05020021#32 30 ∧
    payloadValid 0x05020021#32 = true ∧ (0x05020021#32).getLsbD 17 = true := by decide +kernel

/-- V-C6, and V-C7 with the all-zero payload. -/
theorem witness_JoykbFrameGivesJoykbEvent :
    ((loaded vC6 []).status.frameReady = true ∧ (loaded vC6 []).ctrl.kbdEn = true ∧
      (kbd (loaded vC6 []).timing (frame (loaded vC6 [])) (loaded vC6 []).work).1 = .ok 0x0900FC10#32 30 ∧
      payloadValid 0x0900FC10#32 = true ∧ (0x0900FC10#32).getLsbD 17 = false) ∧
    ((loaded vC7 []).status.frameReady = true ∧ (loaded vC7 []).ctrl.kbdEn = true ∧
      (kbd (loaded vC7 []).timing (frame (loaded vC7 [])) (loaded vC7 []).work).1 = .ok 0x02000000#32 30 ∧
      payloadValid 0x02000000#32 = true ∧ (0x02000000#32).getLsbD 17 = false) := by decide +kernel

/-- What DIAG shows of an untried decoder, and of a rejection. -/
theorem missed_notTried : Missed (Attempt.notTried : Attempt Word) 0#4 0 := .inl ⟨rfl, rfl, rfl⟩
theorem missed_hdrMark : Missed (Attempt.reject .hdrMark 0 : Attempt Word) 3#4 0 := .inr ⟨.hdrMark, rfl, by decide⟩
theorem missed_class : Missed (Attempt.reject .classMiss 3 : Attempt (BitVec 16)) 8#4 3 := .inr ⟨.classMiss, rfl, by decide⟩

/-- V-J1 under DECODE.J, under DECODE after the keyboard rejection, and under DECODE with the keyboard decoder off. -/
theorem witness_JoystickFrameGivesJoyEvent :
    (loaded vJ1 []).status.frameReady = true ∧
    (joy (loaded vJ1 []).timing (loaded vJ1 []).ctrl (frame (loaded vJ1 [])) (loaded vJ1 []).work).1 = .ok 0x0A95#16 21 ∧
    (loaded vJ1 []).ctrl.joyEn = true ∧ (loaded vJ1 []).ctrl.kbdEn = true ∧
    (kbd (loaded vJ1 []).timing (frame (loaded vJ1 [])) (loaded vJ1 []).work).1 = .reject .hdrMark 0 ∧
    { Ctrl.reset with kbdEn := false }.kbdEn = false ∧
    Missed (Attempt.reject .hdrMark 0 : Attempt Word) 3#4 0 ∧ Missed (Attempt.notTried : Attempt Word) 0#4 0 :=
  ⟨by decide +kernel, by decide +kernel, by decide +kernel, by decide +kernel, by decide +kernel, rfl, missed_hdrMark,
    missed_notTried⟩

/-- V-J4: both decoders reject. -/
theorem witness_RejectedFrameIsMalformed :
    (loaded vJ4 []).status.frameReady = true ∧ (loaded vJ4 []).ctrl.kbdEn = true ∧ (loaded vJ4 []).ctrl.joyEn = true ∧
    (kbd (loaded vJ4 []).timing (frame (loaded vJ4 [])) (loaded vJ4 []).work).1 = .reject .hdrMark 0 ∧
    (joy (loaded vJ4 []).timing (loaded vJ4 []).ctrl (frame (loaded vJ4 [])) (loaded vJ4 []).work).1 =
      .reject .classMiss 3 ∧
    Missed (Attempt.reject .hdrMark 0 : Attempt Word) 3#4 0 ∧
    Missed (Attempt.reject .classMiss 3 : Attempt (BitVec 16)) 8#4 3 :=
  ⟨by decide +kernel, by decide +kernel, by decide +kernel, by decide +kernel, by decide +kernel, missed_hdrMark,
    missed_class⟩

/-- V-C2. -/
theorem witness_ChecksumFailureIsFinal :
    (loaded vC2 []).status.frameReady = true ∧ (loaded vC2 []).ctrl.kbdEn = true ∧
    (kbd (loaded vC2 []).timing (frame (loaded vC2 [])) (loaded vC2 []).work).1 = .ok 0x05020020#32 30 ∧
    payloadValid 0x05020020#32 = false := by decide +kernel

/-- V-K1, with the dispatch part hitting a coordinate, missing, and hitting an unassigned OUT in the state between. -/
theorem witness_CombinedDecodeIsDecodeThenDispatch :
    ((loaded vK1 [0x80000A21]).status.frameReady = true ∧ (loaded vK1 [0x80000A21]).ctrl.kbdEn = true ∧
      (kbd (loaded vK1 [0x80000A21]).timing (frame (loaded vK1 [0x80000A21])) (loaded vK1 [0x80000A21]).work).1 =
        .ok 0x05020021#32 30 ∧
      payloadValid 0x05020021#32 = true ∧ (0x05020021#32).getLsbD 17 = true) ∧
    NoHit (keyed 0x00020001#32 []) 0x21#8 false ∧
    (FirstHit (keyed 0x00020001#32 [0x80004321]) 0x21#8 false 0 ∧
      ¬ AssignedCode (keyed 0x00020001#32 [0x80004321]).params
        ((xlatEntry (keyed 0x00020001#32 [0x80004321]).mem 0).extractLsb' 8 8)) := by
  refine ⟨by decide +kernel, (lookupCore_none _ _ _).1 ?_, keyed_hit_unassigned, ?_⟩
  · decide +kernel
  · unfold AssignedCode
    decide +kernel

/-- The three ways of V-K1 with D = 1: the error of the dispatch part has OP 1 (60_exceptions.md R253, R254). -/
theorem test_decode_dispatch_errors :
    after (exec (.decode true) (loaded vK1 [])) (fun t => (t.lookupRes, errWord t.err)) = some (0#32, 0x13#32) ∧
    after (exec (.decodeK true) (loaded vK1 [0x80004321])) (fun t => (t.lookupRes, errWord t.err, t.matrix)) =
      some (0x80000043#32, 0x19#32, 0#64) := by decide +kernel

theorem witness_WorkingRegistersAreUnobservable :
    (∃ t, exec .rearm idle = .next t) ∧ ∃ t, step (issuing idle (.read 0x01C#12)) = .next t := ⟨⟨_, rfl⟩, _, rfl⟩

theorem witness_CommandsKeepConfigurationAndMemory : ∃ t, exec .mreset idle = .next t := ⟨_, rfl⟩

theorem witness_AtMostOneErrorPerCommand :
    ∃ t, exec (.apply 0x43#8 true false) idle = .next t ∧ idle.status.err = false := ⟨_, rfl, rfl⟩

theorem witness_ErrorsLeaveTheMatrixAlone :
    ∃ t, ParamsLegal idle ∧ LeftShiftHolds idle ∧ exec (.apply 0x43#8 true false) idle = .next t ∧
      idle.status.err = false ∧ t.status.err = true :=
  ⟨_, idle_paramsLegal, idle_leftShift, rfl, rfl, rfl⟩

theorem witness_StatusWriteClearsOnes :
    (0x008#12).extractLsb' 2 10 = 2#10 ∧ (0x00B#12).extractLsb' 2 10 = 2#10 := by decide

theorem witness_PbCountWriteHandsOverFrame : (0x018#12).extractLsb' 2 10 = 6#10 ∧ idle.status.busy = false := by decide

theorem witness_CmdWriteAcceptsOrDrops :
    (0x014#12).extractLsb' 2 10 = 5#10 ∧ idle.status.busy = false ∧ (pending 4#32).status.busy = true := by decide

/-- Each clause at the ends of its range. -/
theorem witness_GuardedWriteWhileBusyIsDropped :
    ParamsLegal (pending 4#32) ∧ (pending 4#32).status.busy = true ∧
    ((0x004#12).extractLsb' 2 10).toNat = 1 ∧ ((0x018#12).extractLsb' 2 10).toNat = 6 ∧
    ((0x040#12).extractLsb' 2 10).toNat = 16 ∧ ((0x064#12).extractLsb' 2 10).toNat = 25 ∧
    ((0x100#12).extractLsb' 2 10).toNat = 64 ∧
    ((0x1FC#12).extractLsb' 2 10).toNat = 64 + (pending 4#32).params.pbDepth - 1 ∧
    ((0x400#12).extractLsb' 2 10).toNat = 256 ∧
    ((0x7FC#12).extractLsb' 2 10).toNat = 256 + (pending 4#32).params.xlatDepth - 1 :=
  ⟨idle_paramsLegal, rfl, by decide, by decide, by decide, by decide, by decide, by decide, by decide, by decide⟩

/-- Each clause at the ends of its range; BUSY is free. -/
theorem witness_ReadOnlyAndUnmappedAddressesIgnoreWrites :
    (wordIndex 0x000#12 = 0 ∧ wordIndex 0x013#12 = 4 ∧ wordIndex 0x01C#12 = 7 ∧ wordIndex 0x038#12 = 14) ∧
    ParamsLegal idle ∧ wordIndex 0x03C#12 = 15 ∧ wordIndex 0x068#12 = 26 ∧ wordIndex 0x0FC#12 = 63 ∧
    wordIndex 0x200#12 = 64 + idle.params.pbDepth ∧ wordIndex 0x3FC#12 = 255 ∧
    wordIndex 0x800#12 = 256 + idle.params.xlatDepth ∧ wordIndex 0xFFC#12 = 1023 :=
  ⟨by decide, idle_paramsLegal, by decide, by decide, by decide, by decide, by decide, by decide, by decide⟩

/-- Each clause: the first and the last register below 0x068, a result register with BUSY 0 and with BUSY 1, both ends of PB
and XLAT, and the ends of the unmapped ranges. -/
theorem witness_ReadsHaveNoSideEffect :
    ((wordIndex 0x000#12, 0x4349524B#32) ∈ registerWords idle ∧ wordIndex 0x000#12 ∉ resultIndices) ∧
    ((wordIndex 0x064#12, 0x006404B0#32) ∈ registerWords idle ∧ wordIndex 0x064#12 ∉ resultIndices) ∧
    ((wordIndex 0x038#12, 0#32) ∈ registerWords idle ∧ idle.status.busy = false) ∧
    ((pending 4#32).status.busy = true ∧ wordIndex 0x010#12 ∈ resultIndices ∧ wordIndex 0x038#12 ∈ resultIndices) ∧
    (ParamsLegal idle ∧ 63 < idle.params.pbDepth ∧ wordIndex 0x1FC#12 = 64 + 63 ∧ wordIndex 0x100#12 = 64 + 0 ∧
      255 < idle.params.xlatDepth ∧ wordIndex 0x7FC#12 = 256 + 255 ∧ wordIndex 0x400#12 = 256 + 0) ∧
    (wordIndex 0x03C#12 = 15 ∧ wordIndex 0x068#12 = 26 ∧ wordIndex 0x0FC#12 = 63 ∧
      wordIndex 0x200#12 = 64 + idle.params.pbDepth ∧ wordIndex 0x3FC#12 = 255 ∧
      wordIndex 0x800#12 = 256 + idle.params.xlatDepth ∧ wordIndex 0xFFC#12 = 1023) :=
  ⟨by decide +kernel, by decide +kernel, by decide +kernel, by decide, ⟨idle_paramsLegal, by decide⟩, by decide⟩

/-- Each clause: IRQ_EN with BUSY free, CTRL, the first and the last timing register, PB_COUNT, both ends of PB and XLAT. -/
theorem witness_WritableRegistersReadBack :
    wordIndex 0x00C#12 = 3 ∧ idle.status.busy = false ∧ wordIndex 0x007#12 = 1 ∧ wordIndex 0x040#12 = 16 ∧
    wordIndex 0x064#12 = 25 ∧ wordIndex 0x018#12 = 6 ∧ MemoryCanonical idle ∧ ParamsLegal idle ∧
    0 < idle.params.pbDepth ∧ wordIndex 0x100#12 = 64 + 0 ∧ 63 < idle.params.pbDepth ∧ wordIndex 0x1FC#12 = 64 + 63 ∧
    0 < idle.params.xlatDepth ∧ wordIndex 0x400#12 = 256 + 0 ∧
    255 < idle.params.xlatDepth ∧ wordIndex 0x7FC#12 = 256 + 255 :=
  ⟨by decide, rfl, by decide, by decide, by decide, by decide, rfl, idle_paramsLegal, by decide, by decide, by decide,
    by decide, by decide, by decide, by decide, by decide⟩

theorem witness_EntryWriteLeavesOtherBytes :
    idle.status.busy = false ∧ MemoryCanonical idle ∧ ParamsLegal idle ∧
    63 < idle.params.pbDepth ∧ 63 < idle.params.xlatDepth ∧ 255 < idle.params.xlatDepth :=
  ⟨rfl, rfl, idle_paramsLegal, by decide, by decide, by decide⟩

theorem witness_IrqFollowsEnabledCauses :
    ∃ t, { idle with irqEn := { idle.irqEn with doneIe := true } }.irqEn.doneIe = true ∧
      exec .nop { idle with irqEn := { idle.irqEn with doneIe := true } } = .next t := ⟨_, rfl, rfl⟩

end Sys2Proof.Tests
end

section
/-! SUPPORT. What a host event leaves alone, the invariants that every step keeps, and the state that reset leaves
(10_state.md). -/

namespace Sys2Proof.Machine

/-! ### What a host event leaves alone -/

/-- `t` comes from `s` by a bus event that is no power-on reset: no latch, pin or result register changes, and memory, the
engine's job and ERR change only as `mem`, `job` and `errCode` say (20_memory.md R63 to R69). -/
structure HostFrame (s t : State) : Prop where
  params : t.params = s.params := by rfl
  diag : t.diag = s.diag := by rfl
  ev0 : t.ev0 = s.ev0 := by rfl
  ev1 : t.ev1 = s.ev1 := by rfl
  evRaw : t.evRaw = s.evRaw := by rfl
  lookupRes : t.lookupRes = s.lookupRes := by rfl
  caps : t.caps = s.caps := by rfl
  lheld : t.lheld = s.lheld := by rfl
  rheld : t.rheld = s.rheld := by rfl
  restore : t.restore = s.restore := by rfl
  matrix : t.matrix = s.matrix := by rfl
  work : t.work = s.work := by rfl
  pins : t.pins = s.pins := by rfl
  trace : t.trace = s.trace := by rfl
  invFault : t.status.invFault = s.status.invFault := by rfl
  errCode : t.err.code = s.err.code ∨ t.err.code ≠ errorCode .invariantViolation := by exact .inl rfl
  job : (t.job = s.job ∧ t.status.busy = s.status.busy) ∨
    (s.status.busy = false ∧ t.status.busy = true ∧ ∃ v, t.job = some (.command v)) := by exact .inl ⟨rfl, rfl⟩
  mem : t.mem = s.mem ∨ ∃ a w, t.mem = s.mem.writeWord a w := by exact .inl rfl

theorem hostFrame_memRead (a : BusAddr) (s : State) : HostFrame s (memRead a s) := by
  rcases memRead_cases a s with ⟨e, -⟩ | ⟨e, -⟩ <;> rw [e] <;> exact {}

theorem hostFrame_memWrite (a : BusAddr) (v : Word) (s : State) : HostFrame s (memWrite a v s) := by
  rcases memWrite_cases a v s with ⟨-, -, e⟩ | ⟨-, -, e⟩ | ⟨hfree, e⟩ <;> rw [e]
  · exact { errCode := .inr (show errorCode .cmdWhileBusy ≠ errorCode .invariantViolation by decide) }
  · exact { errCode := .inr (show errorCode .writeWhileBusy ≠ errorCode .invariantViolation by decide) }
  · rcases writeReg_cases s v (regAt s.params a) with ⟨hcmd, e⟩ | ⟨-, c, st, ie, n, tm, m, e, hbusy, hinv, hmem⟩ <;>
      rw [e]
    · have hidle : s.status.busy = false := Bool.eq_false_iff.2 fun hb => hfree ⟨hb, .inl hcmd⟩
      exact { job := .inr ⟨hidle, rfl, v, rfl⟩ }
    · exact { invFault := hinv, job := .inl ⟨rfl, hbusy⟩, mem := hmem }

/-- A host event is a power-on reset, or leaves alone what `HostFrame` says. -/
theorem hostEvent_cases (e : HostEvent) (s : State) :
    hostEvent e s = resetFrom s s.program ∨ HostFrame s (hostEvent e s) := by
  cases e with
  | read a => exact .inr (hostFrame_memRead a s)
  | write a v => exact .inr (hostFrame_memWrite a v s)
  | wait =>
    refine .inr (show HostFrame s (if s.status.busy then { s with program := .wait :: s.program } else s) from ?_)
    split <;> exact {}
  | powerOnReset => exact .inl (powerOnReset_eq s)

/-- What a reset out of any state and every `HostFrame` keep, a host event keeps. -/
theorem hostEvent_keeps {P : State → Prop} (hreset : ∀ s rest, P (resetFrom s rest))
    (hframe : ∀ {s t}, HostFrame s t → P s → P t) (e : HostEvent) (s : State) (h : P s) : P (hostEvent e s) := by
  rcases hostEvent_cases e s with he | he
  · exact he ▸ hreset s s.program
  · exact hframe he h

/-! ### BUSY and the engine's job -/

theorem busyIffJob_resetFrom (s : State) (rest : List HostEvent) : BusyIffJob (resetFrom s rest) := rfl

theorem busyIffJob_hostFrame {s t : State} (hf : HostFrame s t) (h : BusyIffJob s) : BusyIffJob t := by
  rcases hf.job with ⟨hjob, hbusy⟩ | ⟨-, hbusy, v, hjob⟩
  · rw [BusyIffJob, hjob, hbusy]
    exact h
  · rw [BusyIffJob, hjob, hbusy]
    rfl

/-- The engine's own steps all end with BUSY 0 and no job (44_control.md R241). -/
theorem stepKept_busyIffJob : StepKept BusyIffJob where
  host := hostEvent_keeps busyIffJob_resetFrom busyIffJob_hostFrame
  pop _ _ h := h
  spend _ h := h
  init _ _ _ := rfl
  illegal _ _ _ _ := rfl
  run _ _ _ _ _ := rfl

/-- Settles O15: ACCEPT sets BUSY with the job, and every engine step clears both. -/
theorem stepKeepsBusyIffJob : Obligations.StepKeepsBusyIffJob := fun _ _ => stepKept_busyIffJob.step

/-! ### The memory's canonical form -/

theorem memoryCanonical_resetFrom (s : State) (rest : List HostEvent) : MemoryCanonical (resetFrom s rest) := memory_wf_nil

theorem memoryCanonical_hostFrame {s t : State} (hf : HostFrame s t) (h : MemoryCanonical s) : MemoryCanonical t := by
  rcases hf.mem with hmem | ⟨a, w, hmem⟩
  · rw [MemoryCanonical, hmem]
    exact h
  · rw [MemoryCanonical, hmem]
    exact writeWord_wf _ a w h

/-- The engine stores nothing to PB or XLAT. -/
theorem stepKept_memoryCanonical : StepKept MemoryCanonical where
  host := hostEvent_keeps memoryCanonical_resetFrom memoryCanonical_hostFrame
  pop _ _ h := h
  spend _ h := h
  init s _ h := by
    rw [initialReset_eq]
    exact h
  illegal _ _ _ h := h
  run _ i s _ h := by
    rw [MemoryCanonical, completeCommand_mem, (commandBody_sameConfig i s).mem]
    exact h

/-- Settles O16: only an accepted PB or XLAT write changes the memory, by one word. -/
theorem stepKeepsMemoryCanonical : Obligations.StepKeepsMemoryCanonical := fun _ _ => stepKept_memoryCanonical.step

/-! ### The pins at rest -/

theorem pinsAtRest_resetFrom (s : State) (rest : List HostEvent) : PinsAtRest (resetFrom s rest) := ⟨rfl, rfl, rfl, rfl⟩

/-- Only the pins and the restore latch matter. -/
theorem pinsAtRest_congr {s t : State} (hp : t.pins = s.pins) (hr : t.restore = s.restore) (h : PinsAtRest s) :
    PinsAtRest t := by
  rw [PinsAtRest, hp, hr]
  exact h

/-- A crosspoint write ends with the strobe low (43_matrix.md R210). -/
theorem pinsAtRest_xwrite (c : Coord) (v : Bool) (s : State) (h : PinsAtRest s) : PinsAtRest (xwrite c v s) := by
  obtain ⟨hoe, -, hxrst, hrearm⟩ := h
  exact ⟨hoe, rfl, hxrst, hrearm⟩

theorem pinsAtRest_invCheck (op : BitVec 4) {s : State} (h : PinsAtRest s) : PinsAtRest (invCheck op s) :=
  pinsAtRest_congr (invCheck_pins op s) (invCheck_restore op s) h

/-- INIT_STATE() ends with the restore line released and the array's reset pulse over (43_matrix.md R211, R219). -/
theorem pinsAtRest_initState (s : State) (h : PinsAtRest s) : PinsAtRest (initState s) := by
  obtain ⟨-, -, -, hrearm⟩ := h
  rw [initState_eq]
  exact ⟨rfl, rfl, rfl, hrearm⟩

theorem pinsAtRest_applyCaps (p : Bool) (s : State) (h : PinsAtRest s) : PinsAtRest (applyCaps p s) := by
  cases p
  · exact h
  · exact pinsAtRest_xwrite _ _ { s with caps := !s.caps } h

/-- The line and the latch change together (43_matrix.md R215). -/
theorem pinsAtRest_applyRestore (p : Bool) (s : State) (h : PinsAtRest s) : PinsAtRest (applyRestore p s) := by
  obtain ⟨-, hstrobe, hxrst, hrearm⟩ := h
  cases p <;> exact ⟨rfl, hstrobe, hxrst, hrearm⟩

theorem pinsAtRest_applyReset (p : Bool) (s : State) (h : PinsAtRest s) : PinsAtRest (applyReset p s) := by
  cases p
  · exact h
  · exact pinsAtRest_initState s h

theorem pinsAtRest_autoShift (p a : Bool) (s : State) (h : PinsAtRest s) : PinsAtRest (autoShift p a s) := by
  cases a
  · exact h
  · exact pinsAtRest_xwrite _ _ s h

theorem pinsAtRest_applyBody (op : BitVec 4) (c : Byte) (p a : Bool) (s : State) (h : PinsAtRest s) :
    PinsAtRest (applyBody op c p a s) := by
  rcases applyBody_cases op c p a s with
    ⟨-, e⟩ | ⟨-, -, e⟩ | ⟨-, -, -, e⟩ | ⟨-, e⟩ | ⟨-, e⟩ | ⟨-, -, e⟩ | ⟨k, -, -, -, e⟩ <;> rw [e]
  · exact pinsAtRest_invCheck op (pinsAtRest_applyCaps p s h)
  · exact pinsAtRest_invCheck op (pinsAtRest_applyRestore p s h)
  · exact pinsAtRest_invCheck op (pinsAtRest_applyReset p s h)
  · exact h
  · exact pinsAtRest_invCheck op (pinsAtRest_xwrite _ _ { s with lheld := p } h)
  · exact pinsAtRest_invCheck op (pinsAtRest_xwrite _ _ { s with rheld := p } h)
  · exact pinsAtRest_invCheck op (pinsAtRest_xwrite _ _ _ (pinsAtRest_autoShift p a s h))

theorem kept_pinsAtRest : Kept PinsAtRest where
  raise _ _ _ _ h := h
  apply := pinsAtRest_applyBody
  init := pinsAtRest_initState
  lookup _ _ _ h := h
  drop s h := by
    obtain ⟨hoe, hstrobe, hxrst, -⟩ := h
    exact ⟨hoe, hstrobe, hxrst, rfl⟩
  diag _ _ _ h := h
  work _ _ h := h
  event _ _ _ _ _ _ _ h := h
  mark _ h := h

theorem stepKept_pinsAtRest : StepKept PinsAtRest where
  host := hostEvent_keeps pinsAtRest_resetFrom fun hf => pinsAtRest_congr hf.pins hf.restore
  pop _ _ h := h
  spend _ h := h
  init s _ h := pinsAtRest_initState s h
  illegal _ _ _ h := h
  run _ i s _ h := kept_pinsAtRest.commandBody i s h

/-- Settles O17: every pin event ends with its pulse low, and the restore event goes with the latch. -/
theorem stepKeepsPinsAtRest : Obligations.StepKeepsPinsAtRest := fun _ _ => stepKept_pinsAtRest.step

/-! ### The reserved bits of the result registers -/

theorem reservedBitsZero_resetFrom (s : State) (rest : List HostEvent) : ReservedBitsZero (resetFrom s rest) := by
  refine ⟨?_, ?_, ?_, ?_, ?_⟩ <;> exact BitVec.zero_and

theorem reservedBitsZero_hostFrame {s t : State} (hf : HostFrame s t) (h : ReservedBitsZero s) : ReservedBitsZero t := by
  rw [ReservedBitsZero, hf.diag, hf.ev0, hf.ev1, hf.evRaw, hf.lookupRes]
  exact h

/-- The matrix controller writes no result register. -/
theorem reservedBitsZero_matrixStep {s t : State} (hm : MatrixStep s t) (h : ReservedBitsZero s) : ReservedBitsZero t := by
  obtain ⟨_, _, _, _, _, _, _, _, _, _, _, rfl⟩ := hm
  exact h

/-- Bits 31:28 as a field and as a mask. -/
theorem topMask_of_topZero (w : Word) (h : w.extractLsb' 28 4 = 0#4) : w &&& 0xF0000000#32 = 0#32 := by
  have top : ∀ k < 4, w.getLsbD (28 + k) = false := fun k hk => by
    simpa [hk] using congrArg (fun f => f.getLsbD k) h
  apply BitVec.eq_of_getLsbD_eq
  intro i hi
  rw [BitVec.getLsbD_and]
  by_cases hlow : i < 28
  · interval_cases i <;> simp
  · obtain ⟨k, rfl⟩ := Nat.exists_eq_add_of_le (not_lt.1 hlow)
    rw [top k (by omega), Bool.false_and, BitVec.getLsbD_zero]

theorem kept_reservedBitsZero : Kept ReservedBitsZero where
  raise _ _ _ _ h := h
  apply op c p a s h := reservedBitsZero_matrixStep (matrixStep_applyBody op c p a s) h
  init s h := reservedBitsZero_matrixStep (matrixStep_initState s) h
  lookup r sh _ h := by
    obtain ⟨hdiag, hev0, hev1, hraw, -⟩ := h
    exact ⟨hdiag, hev0, hev1, hraw, lookupWord_reserved r sh⟩
  drop _ h := h
  diag kr jr _ h := by
    obtain ⟨-, hev0, hev1, hraw, hlookup⟩ := h
    exact ⟨diagWord_reserved kr jr, hev0, hev1, hraw, hlookup⟩
  work _ _ h := h
  event _ _ raw _ hev0 hev1 hraw h := by
    obtain ⟨hdiag, -, -, -, hlookup⟩ := h
    exact ⟨hdiag, hev0, hev1, topMask_of_topZero raw hraw, hlookup⟩
  mark _ h := h

theorem stepKept_reservedBitsZero : StepKept ReservedBitsZero where
  host := hostEvent_keeps reservedBitsZero_resetFrom reservedBitsZero_hostFrame
  pop _ _ h := h
  spend _ h := h
  init s _ h := kept_reservedBitsZero.init s h
  illegal _ _ _ h := h
  run _ i s _ h := kept_reservedBitsZero.commandBody i s h

/-- Settles O19: only the engine writes the result registers, and every word it builds has its reserved bits 0. -/
theorem stepKeepsReservedBitsZero : Obligations.StepKeepsReservedBitsZero := fun _ _ => stepKept_reservedBitsZero.step

/-! ### The state that reset leaves -/

/-- State.reset is what a power-on reset leaves of a state that has seen nothing yet. -/
theorem reset_eq_resetFrom : State.reset = resetFrom { State.reset with draws := 0 } [] := rfl

/-- No register shows what a power-on reset lets stand (log entry 10). -/
theorem readReg_resetFrom (s : State) (rest : List HostEvent) (r : Reg) :
    readReg (resetFrom s rest) r = readReg State.reset r := by
  cases r <;> rfl

/-- Memory with nothing listed reads 0 everywhere (10_state.md R51). -/
theorem readWord_nil (a : Nat) : Memory.readWord [] a = 0#32 := by
  simp only [Memory.readWord, Memory.readByte, unlistedByte]
  decide

theorem readReg_pb_reset (i : Nat) : readReg State.reset (.pb i) = 0#32 := by
  show ((Memory.readWord [] (pbAddr i)).extractLsb' 0 16).setWidth 32 = 0#32
  rw [readWord_nil]
  decide

theorem readReg_xlat_reset (i : Nat) : readReg State.reset (.xlat i) = 0#32 := by
  show Memory.readWord [] (xlatAddr i) &&& xlatMask = 0#32
  rw [readWord_nil]
  decide

/-- Settles O10: both ways to a reset state give `resetFrom`, which shows what State.reset shows; there the registers other
than PB and XLAT are constants to compare. -/
theorem resetValuesAsTheSpecStates : Obligations.ResetValuesAsTheSpecStates := by
  intro t ht
  obtain ⟨s, rest, rfl⟩ : ∃ s rest, t = resetFrom s rest := by
    rcases ht with rfl | ⟨s, rfl⟩
    · exact ⟨_, _, reset_eq_resetFrom⟩
    · exact ⟨s, s.program, powerOnReset_eq s⟩
  have hpins : (resetFrom s rest).pins = State.reset.pins := rfl
  have hirq : irqOut (resetFrom s rest) = irqOut State.reset := rfl
  have hjob : (resetFrom s rest).job = State.reset.job := rfl
  simp only [readReg_resetFrom, readReg_pb_reset, readReg_xlat_reset, hpins, hirq, hjob, implies_true, true_and]
  decide

/-- Settles O12: the array's mirror asks nothing yet, for the initial MRESET is still pending (43_matrix.md R213). -/
theorem resetStateIsGood : Obligations.ResetStateIsGood := by
  refine ⟨?leftShift, ?busy, ?memory, ?pins, ?array, ?reserved, ?noFault, ?params⟩
  case leftShift => exact crossAt_zero State.reset.params.lshiftCoord
  case busy => exact reset_eq_resetFrom ▸ busyIffJob_resetFrom _ _
  case memory => exact memory_wf_nil
  case pins => exact reset_eq_resetFrom ▸ pinsAtRest_resetFrom _ _
  case array => exact fun hjob => absurd rfl hjob
  case reserved => exact reset_eq_resetFrom ▸ reservedBitsZero_resetFrom _ _
  case noFault => exact ⟨rfl, by decide⟩
  case params => exact rfl

end Sys2Proof.Machine
end

section
/-! SUPPORT. What a write of a register sets, what it leaves alone, and what reads back (10_state.md, 20_memory.md). -/

namespace Sys2Proof.Machine

/-- The map below 0x100 by word index (20_memory.md R61). -/
theorem regAt_of_wordIndex (prm : Params) {a : BusAddr} {x : Nat} (h : wordIndex a = x) (hx : x < 64) :
    regAt prm a = controlReg x := by
  subst h
  exact regAt_control prm a hx

/-- A write that BUSY does not guard takes effect whatever BUSY is (20_memory.md R69). -/
theorem memWrite_unguarded (a : BusAddr) (v : Word) (s : State) (hcmd : regAt s.params a ≠ .cmd)
    (hguard : guardedWhileBusy (regAt s.params a) = false) : memWrite a v s = writeReg s v (regAt s.params a) := by
  rcases memWrite_cases a v s with ⟨-, h, -⟩ | ⟨-, h, -⟩ | ⟨-, h⟩
  · exact absurd h hcmd
  · rw [hguard] at h
    cases h
  · exact h

theorem memWrite_control {a : BusAddr} {x : Nat} (v : Word) {s : State} (hbusy : s.status.busy = false)
    (h : wordIndex a = x) (hx : x < 64) : memWrite a v s = writeReg s v (controlReg x) := by
  rw [memWrite_idle a v s hbusy, regAt_of_wordIndex s.params h hx]

theorem memWrite_irqEn {a : BusAddr} (v : Word) (s : State) (h : wordIndex a = 3) :
    memWrite a v s = { s with irqEn := irqEnOfWord v } := by
  have hreg : regAt s.params a = .irqEn := regAt_of_wordIndex s.params h (by decide)
  rw [memWrite_unguarded a v s (by rw [hreg]; decide) (by rw [hreg]; rfl), hreg]
  rfl

theorem memWrite_pb {a : BusAddr} {x : Nat} (v : Word) {s : State} (hbusy : s.status.busy = false) (hp : ParamsLegal s)
    (hx : x < s.params.pbDepth) (h : wordIndex a = 64 + x) :
    memWrite a v s = { s with mem := s.mem.writeWord (pbAddr x) (v &&& pbMask) } := by
  obtain ⟨-, hpb, -, -⟩ := paramsLegal_depths hp
  rw [memWrite_idle a v s hbusy, regAt_pb s.params a x h hx hpb]
  rfl

theorem memWrite_xlat {a : BusAddr} {x : Nat} (v : Word) {s : State} (hbusy : s.status.busy = false) (hp : ParamsLegal s)
    (hx : x < s.params.xlatDepth) (h : wordIndex a = 256 + x) :
    memWrite a v s = { s with mem := s.mem.writeWord (xlatAddr x) (v &&& xlatMask) } := by
  obtain ⟨-, -, -, hxlat⟩ := paramsLegal_depths hp
  rw [memWrite_idle a v s hbusy, regAt_xlat s.params a x h hx hxlat]
  rfl

/-- IRQ_EN keeps bits 2, 3 and 5 of the word (10_state.md R23). -/
theorem irqEnWord_irqEnOfWord (v : Word) : irqEnWord (irqEnOfWord v) = v &&& 0x0000002C#32 := by
  apply BitVec.eq_of_getLsbD_eq
  intro i hi
  simp only [irqEnWord, irqEnOfWord, BitVec.getLsbD_append, BitVec.getLsbD_and]
  interval_cases i <;> simp

/-- CTRL keeps bits 3:0 and 15:8 of the word (10_state.md R21). -/
theorem ctrlWord_ctrlOfWord (v : Word) : ctrlWord (ctrlOfWord v) = v &&& 0x0000FF0F#32 := by
  apply BitVec.eq_of_getLsbD_eq
  intro i hi
  simp only [ctrlWord, ctrlOfWord, BitVec.getLsbD_append, BitVec.getLsbD_and]
  interval_cases i <;> simp

/-- COUNT as it reads back: bits 7:0 of the word (10_state.md R26). -/
theorem lowByte_widened (v : Word) : (v.extractLsb' 0 8).setWidth 32 = v &&& 0x000000FF#32 := by
  apply BitVec.eq_of_getLsbD_eq
  intro i hi
  simp only [BitVec.getLsbD_setWidth, BitVec.getLsbD_extractLsb', BitVec.getLsbD_and]
  interval_cases i <;> simp

/-- DUR as it reads back: bits 15:0 of the stored word (10_state.md R29). -/
theorem lowHalf_widened (v : Word) : ((v &&& pbMask).extractLsb' 0 16).setWidth 32 = v &&& 0x0000FFFF#32 := by
  apply BitVec.eq_of_getLsbD_eq
  intro i hi
  simp only [BitVec.getLsbD_setWidth, BitVec.getLsbD_extractLsb', BitVec.getLsbD_and, pbMask]
  interval_cases i <;> simp

/-- PB[x] reads back its DUR after a write of its word (10_state.md R29). -/
theorem readReg_pb_written (s : State) (x : Nat) (v : Word) (hm : MemoryCanonical s) :
    readReg { s with mem := s.mem.writeWord (pbAddr x) (v &&& pbMask) } (.pb x) = v &&& 0x0000FFFF#32 := by
  rw [readReg, pbEntry, readWord_writeWord_same _ _ _ hm]
  exact lowHalf_widened v

/-- XLAT[x] reads back VALID, FLAGS, OUT and IN after a write of its word (10_state.md R30). -/
theorem readReg_xlat_written (s : State) (x : Nat) (v : Word) (hm : MemoryCanonical s) :
    readReg { s with mem := s.mem.writeWord (xlatAddr x) (v &&& xlatMask) } (.xlat x) = v &&& 0x80FFFFFF#32 := by
  rw [readReg, xlatEntry, readWord_writeWord_same _ _ _ hm, BitVec.and_assoc, BitVec.and_self]
  rfl

/-- Settles O58: the register map names the register, and each register's word gives back the bits it has. -/
theorem writableRegistersReadBack : Obligations.WritableRegistersReadBack := by
  intro s v
  refine ⟨fun a ha => ?irqEn, fun hbusy a => ⟨fun ha => ?ctrl, ?windows⟩, fun hbusy hm hp a => ⟨fun ha => ?pbCount, ?pb, ?xlat⟩⟩
  case irqEn =>
    rw [memWrite_irqEn v s ha]
    exact ⟨rfl, irqEnWord_irqEnOfWord v⟩
  case ctrl =>
    rw [memWrite_control v hbusy ha (by decide)]
    exact ⟨rfl, ctrlWord_ctrlOfWord v⟩
  case windows =>
    and_intros <;> exact fun ha => memWrite_control v hbusy ha (by decide)
  case pbCount =>
    rw [memWrite_control v hbusy ha (by decide)]
    exact lowByte_widened v
  case pb =>
    intro x hx ha
    rw [memWrite_pb v hbusy hp hx ha]
    exact readReg_pb_written s x v hm
  case xlat =>
    intro x hx ha
    rw [memWrite_xlat v hbusy hp hx ha]
    exact readReg_xlat_written s x v hm

/-- The word index of a PB entry's address (20_memory.md R61). -/
theorem wordIndex_pbAddr {x : Nat} (hx : x < 64) : wordIndex (BitVec.ofNat 12 (pbAddr x)) = 64 + x := by
  rw [show pbAddr x = 4 * (64 + x) by unfold pbAddr; omega]
  exact wordIndex_ofNat (64 + x) (by omega)

/-- The word index of an XLAT entry's address (20_memory.md R61). -/
theorem wordIndex_xlatAddr {x : Nat} (hx : x < 256) : wordIndex (BitVec.ofNat 12 (xlatAddr x)) = 256 + x := by
  rw [show xlatAddr x = 4 * (256 + x) by unfold xlatAddr; omega]
  exact wordIndex_ofNat (256 + x) (by omega)

/-- A byte below or above a written word reads as before. -/
theorem readByte_writeWord_outside (m : Memory) (a b : Nat) (v : Word) (h : m.wf = true) (hb : b < a ∨ a + 4 ≤ b) :
    (m.writeWord a v).readByte b = m.readByte b :=
  readByte_writeWord_apart m a b v h fun j hj => by omega

/-- Settles O59: the write stores one word at the entry's address, and the memory's own law gives the other bytes. -/
theorem entryWriteLeavesOtherBytes : Obligations.EntryWriteLeavesOtherBytes := by
  intro s v x hbusy hm hp
  obtain ⟨-, hpb, -, hxlat⟩ := paramsLegal_depths hp
  constructor
  · intro hx
    exact ⟨_, memWrite_pb v hbusy hp hx (wordIndex_pbAddr (by omega)),
      fun b hb => readByte_writeWord_outside _ _ b _ hm hb⟩
  · intro hx
    exact ⟨_, memWrite_xlat v hbusy hp hx (wordIndex_xlatAddr (by omega)),
      fun b hb => readByte_writeWord_outside _ _ b _ hm hb⟩

end Sys2Proof.Machine
end

section
/-! SUPPORT. The decoders' working registers do not show (10_state.md R45). `setWork w s` is the state with other contents
of them: the decoders answer the same from it, and every other operation commutes with it. -/

namespace Sys2Proof.Machine

/-- `t` is `s` but for the working registers. -/
def SameButWork (s t : State) : Prop := ∃ w, t = setWork w s

/-! ### The selections -/

/-- SELECT_K answers the same whatever the working registers held. -/
theorem selectKbd_work (s : State) (v w : Work) : ∃ w', selectKbd s v = { selectKbd s w with work := w' } := by
  unfold selectKbd
  dsimp only
  rw [kbd_work s.timing (frame s) v w]
  split <;> exact ⟨_, rfl⟩

/-- SELECT_J answers the same whatever the working registers held. -/
theorem selectJoy_work (s : State) (kr : Attempt Word) (v w : Work) :
    ∃ w', selectJoy s kr v = { selectJoy s kr w with work := w' } := by
  unfold selectJoy
  dsimp only
  rw [joy_work s.timing s.ctrl (frame s) v w]
  split <;> exact ⟨_, rfl⟩

theorem discriminateJoy_work (s : State) (kr : Attempt Word) (v w : Work) :
    ∃ w', discriminateJoy s kr v = { discriminateJoy s kr w with work := w' } := by
  unfold discriminateJoy
  split
  · exact selectJoy_work s kr v w
  · exact ⟨_, rfl⟩

/-- DISCRIMINATE answers the same whatever the working registers held (40_frame_decode.md R155). -/
theorem discriminate_work (s : State) (v w : Work) : ∃ w', discriminate s v = { discriminate s w with work := w' } := by
  unfold discriminate
  rw [kbd_work s.timing (frame s) v w]
  split
  · split
    · exact selectKbd_work s v w
    · exact discriminateJoy_work s _ _ _
  · exact discriminateJoy_work s _ v w

/-! ### Each shared operation commutes with a change of the working registers -/

theorem invCheck_setWork (op : BitVec 4) (w : Work) (s : State) : invCheck op (setWork w s) = setWork w (invCheck op s) := by
  rcases invCheck_cases op s with ⟨h, e⟩ | ⟨h, e⟩ <;> rw [e]
  · exact if_pos h
  · exact if_neg h

theorem initState_setWork (w : Work) (s : State) : initState (setWork w s) = setWork w (initState s) := by
  rw [initState_eq, initState_eq]
  rfl

theorem applyCaps_setWork (p : Bool) (w : Work) (s : State) : applyCaps p (setWork w s) = setWork w (applyCaps p s) := by
  cases p <;> rfl

theorem applyRestore_setWork (p : Bool) (w : Work) (s : State) :
    applyRestore p (setWork w s) = setWork w (applyRestore p s) := by
  cases p <;> rfl

theorem applyReset_setWork (p : Bool) (w : Work) (s : State) : applyReset p (setWork w s) = setWork w (applyReset p s) := by
  cases p
  · rfl
  · exact initState_setWork w s

theorem applyKey_setWork (c : Coord) (p a : Bool) (w : Work) (s : State) :
    applyKey c p a (setWork w s) = setWork w (applyKey c p a s) := by
  cases a <;> rfl

theorem applyBody_setWork (op : BitVec 4) (c : Byte) (p a : Bool) (w : Work) (s : State) :
    applyBody op c p a (setWork w s) = setWork w (applyBody op c p a s) := by
  unfold applyBody
  simp only [setWork_params, applyCaps_setWork, applyRestore_setWork, applyReset_setWork, applyKey_setWork,
    show applyLeftShift p (setWork w s) = setWork w (applyLeftShift p s) from rfl,
    show applyRightShift p (setWork w s) = setWork w (applyRightShift p s) from rfl,
    show raise .reservedCode op (setWork w s) = setWork w (raise .reservedCode op s) from rfl,
    invCheck_setWork, apply_ite (setWork w)]

theorem dispatchBody_setWork (op : BitVec 4) (w : Work) (s : State) :
    dispatchBody op (setWork w s) = setWork w (dispatchBody op s) := by
  unfold dispatchBody
  rw [show lookupCore (ev1Code (setWork w s).ev1) (inputShift (setWork w s)) (setWork w s) =
    lookupCore (ev1Code s.ev1) (inputShift s) s from rfl, apply_ite (setWork w)]
  refine if_congr Iff.rfl ?_ rfl
  split
  · exact applyBody_setWork _ _ _ _ w (writeLookupRes _ s)
  · rfl

theorem deliver_setWork (d : Bool) (res : FrameResult) (w : Work) (s : State) :
    deliver d res (setWork w s) = setWork w (deliver d res s) := by
  cases res with
  | malformed => rfl
  | chkFail p => rfl
  | event e =>
    unfold deliver
    dsimp only
    split
    · exact dispatchBody_setWork 1#4 w (markEvent (writeEvent _ _ _ s))
    · rfl

/-- A DECODE whose selections agree but for the working registers ends in the same state but for those. -/
theorem decodeBody_work (d : Bool) {sel sel' : Selected} (hsel : ∃ w', sel' = { sel with work := w' }) (w : Work)
    (s : State) : SameButWork (decodeBody d sel s) (decodeBody d sel' (setWork w s)) := by
  obtain ⟨w', rfl⟩ := hsel
  unfold decodeBody
  rw [setWork_status]
  split
  · exact ⟨w', deliver_setWork d sel.res w' (consumeFrame sel s)⟩
  · exact ⟨w, rfl⟩

/-- No command's body shows what the working registers held. -/
theorem commandBody_work (i : Instr) (w : Work) (s : State) :
    SameButWork (commandBody i s) (commandBody i (setWork w s)) := by
  cases i with
  | nop => exact ⟨w, rfl⟩
  | decode d => exact decodeBody_work d (discriminate_work s w s.work) w s
  | decodeK d => exact decodeBody_work d (selectKbd_work s w s.work) w s
  | decodeJ d => exact decodeBody_work d (selectJoy_work s .notTried w s.work) w s
  | dispatch => exact ⟨w, dispatchBody_setWork 2#4 w s⟩
  | apply c p a => exact ⟨w, applyBody_setWork 3#4 c p a w s⟩
  | mreset => exact ⟨w, initState_setWork w s⟩
  | rearm => exact ⟨w, rfl⟩
  | lookup c sh => exact ⟨w, rfl⟩

theorem sameButWork_complete {s t : State} (h : SameButWork s t) : SameButWork (completeCommand s) (completeCommand t) := by
  obtain ⟨w, rfl⟩ := h
  exact ⟨w, rfl⟩

/-! ### The host's side -/

theorem readReg_setWork (w : Work) (s : State) (r : Reg) : readReg (setWork w s) r = readReg s r := by
  cases r <;> rfl

theorem memRead_setWork (a : BusAddr) (w : Work) (s : State) : memRead a (setWork w s) = setWork w (memRead a s) := by
  unfold memRead
  simp only [readReg_setWork, setWork_status, setWork_params]
  split <;> rfl

theorem writeReg_setWork (v : Word) (r : Reg) (w : Work) (s : State) :
    writeReg (setWork w s) v r = setWork w (writeReg s v r) := by
  cases r <;> rfl

theorem memWrite_setWork (a : BusAddr) (v : Word) (w : Work) (s : State) :
    memWrite a v (setWork w s) = setWork w (memWrite a v s) := by
  unfold memWrite
  simp only [writeReg_setWork, setWork_status, setWork_params,
    show ∀ n op b, recordError n op b (setWork w s) = setWork w (recordError n op b s) from fun _ _ _ => rfl,
    apply_ite (setWork w)]

/-- A power-on reset gives the working registers their reset value, whatever they held. -/
theorem hostEvent_work (e : HostEvent) (w : Work) (s : State) :
    SameButWork (hostEvent e s) (hostEvent e (setWork w s)) := by
  cases e with
  | read a => exact ⟨w, memRead_setWork a w s⟩
  | write a v => exact ⟨w, memWrite_setWork a v w s⟩
  | wait =>
    refine ⟨w, ?_⟩
    simp only [hostEvent, setWork_status, apply_ite (setWork w)]
    rfl
  | powerOnReset => exact ⟨Work.reset, rfl⟩

theorem hostStep_work (w : Work) (s : State) : SameButWork (hostStep s) (hostStep (setWork w s)) := by
  rcases hp : s.program with _ | ⟨e, rest⟩
  · rw [hostStep_nil s hp, hostStep_nil (setWork w s) hp]
    exact ⟨w, rfl⟩
  · rw [hostStep_cons s e rest hp, hostStep_cons (setWork w s) e rest hp]
    exact hostEvent_work e w { s with program := rest }

/-! ### One step -/

theorem initialReset_setWork (w : Work) (s : State) : initialReset (setWork w s) = setWork w (initialReset s) := by
  rw [initialReset_eq, initialReset_eq]
  rfl

theorem executeCommand_ok {v : Word} {i : Instr} (h : decode v = .ok i) (s : State) :
    executeCommand v s = .next (completeCommand (commandBody i s)) := by
  rw [executeCommand, h]
  exact exec_eq i s

theorem executeCommand_error {v : Word} {x : Illegal} (h : decode v = .error x) (s : State) :
    executeCommand v s = .next (illegalCommand v s) := by
  rw [executeCommand, h]

/-- Every step, the engine's or the host's, ends in the same state but for the working registers: they decide neither who
moves nor what it does. -/
theorem step_work {s t : State} (w : Work) (h : step s = .next t) :
    ∃ t', SameButWork t t' ∧ step (setWork w s) = .next t' := by
  rcases step_cases s with ⟨hj, e⟩ | ⟨hj, he, e⟩ | ⟨v, hj, he, ⟨i, hd, e⟩ | ⟨x, hd, e⟩⟩ | ⟨j, hj, he, e⟩ <;>
    rw [e] at h <;> injection h with h <;> subst h
  · exact ⟨_, hostStep_work w s, step_idle (setWork w s) hj⟩
  · exact ⟨_, ⟨w, initialReset_setWork w s⟩, step_engine (setWork w s) _ hj he⟩
  · exact ⟨_, sameButWork_complete (commandBody_work i w s),
      (step_engine (setWork w s) _ hj he).trans (executeCommand_ok hd _)⟩
  · exact ⟨_, ⟨w, rfl⟩, (step_engine (setWork w s) _ hj he).trans (executeCommand_error hd _)⟩
  · exact ⟨_, hostStep_work w (spendAccess s), step_spend (setWork w s) j hj he⟩

/-- Settles O48: each command's body and each step carries `SameButWork` on, and no register's word reads them. -/
theorem workingRegistersAreUnobservable : Obligations.WorkingRegistersAreUnobservable := by
  refine ⟨fun i s t w h => ?command, fun s t w h => ?step, fun s w r => readReg_setWork w s r⟩
  case command =>
    obtain ⟨w', e⟩ := sameButWork_complete (commandBody_work i w s)
    rw [exec_next h]
    exact ⟨w', (exec_eq i (setWork w s)).trans (congrArg Host.Outcome.next e)⟩
  case step =>
    obtain ⟨_, ⟨w', rfl⟩, e⟩ := step_work w h
    exact ⟨w', e⟩

end Sys2Proof.Machine
end

section
/-! SUPPORT. What the host's accesses do, address by address, and the order in which they take effect (20_memory.md R61 to
R73). -/

namespace Sys2Proof.Machine

/-! ### Reads -/

/-- A read returns the register's word, unless it is a result register while BUSY is 1 (20_memory.md R63, R68). -/
theorem memRead_reg {a : BusAddr} {s : State} {r : Reg} (hreg : regAt s.params a = r)
    (h : s.status.busy = false ∨ freeWhileBusy r = false) :
    memRead a s = { s with reads := s.reads ++ [readReg s r] } := by
  subst hreg
  rcases memRead_cases a s with ⟨-, hbusy, hfree⟩ | ⟨e, -⟩
  · simp [hbusy, hfree] at h
  · exact e

/-- A read of a result register while BUSY is 1 returns the next draw (20_memory.md R68, log entry 3). -/
theorem memRead_free {a : BusAddr} {s : State} {r : Reg} (hreg : regAt s.params a = r) (hbusy : s.status.busy = true)
    (hfree : freeWhileBusy r = true) :
    memRead a s = { s with reads := s.reads ++ [Config.busyRead s.draws], draws := s.draws + 1 } := by
  subst hreg
  rcases memRead_cases a s with ⟨e, -⟩ | ⟨-, h⟩
  · exact e
  · exact absurd ⟨hbusy, hfree⟩ h

/-- An unmapped address reads 0, whatever BUSY is (20_memory.md R62). -/
theorem memRead_unmapped {a : BusAddr} {s : State} (hreg : regAt s.params a = .unmapped) :
    memRead a s = { s with reads := s.reads ++ [0#32] } := memRead_reg hreg (.inr rfl)

/-- The word indices below 64 at which a register stands (20_memory.md R61). -/
def registerIndices : List Nat := List.range 15 ++ List.range' 16 10

theorem registerIndices_lt : ∀ x ∈ registerIndices, x < 64 := by decide

/-- The result registers of the map are those whose read is free while BUSY is 1 (20_memory.md R68). -/
theorem freeWhileBusy_controlReg : ∀ x < 64, freeWhileBusy (controlReg x) = decide (x ∈ resultIndices) := by decide

theorem resultIndices_lt : ∀ x ∈ resultIndices, x < 64 := by decide

/-- COUNT stands in bits 7:0 of PB_COUNT, below 24 zeros (10_state.md R26). -/
theorem count_widened (n : Byte) : n.setWidth 32 = (0#24 ++ n : BitVec 32) := by
  rw [BitVec.setWidth_eq_append (by decide)]
  rfl

/-- The words of 10_state.md R20 to R38, listed bit by bit, are what the registers of the map read as. -/
theorem registerWords_eq (s : State) :
    registerWords s = registerIndices.map fun x => (x, readReg s (controlReg x)) := by
  rw [registerWords, ← count_widened]
  rfl

theorem readReg_of_mem_registerWords {s : State} {x : Nat} {w : Word} (h : (x, w) ∈ registerWords s) :
    x < 64 ∧ readReg s (controlReg x) = w := by
  rw [registerWords_eq, List.mem_map] at h
  obtain ⟨y, hy, e⟩ := h
  injection e with hx hw
  subst hx
  exact ⟨registerIndices_lt y hy, hw⟩

/-- Bits 15:0 as a field and as a mask. -/
theorem lowHalf_eq_mask (w : Word) : (w.extractLsb' 0 16).setWidth 32 = w &&& 0x0000FFFF#32 := by
  apply BitVec.eq_of_getLsbD_eq
  intro i hi
  simp only [BitVec.getLsbD_setWidth, BitVec.getLsbD_extractLsb', BitVec.getLsbD_and]
  interval_cases i <;> simp

/-- A PB entry reads as DUR, bits 15:0 of its word (10_state.md R29). -/
theorem readReg_pb (s : State) (i : Nat) : readReg s (.pb i) = s.mem.readWord (0x100 + 4 * i) &&& 0x0000FFFF#32 :=
  lowHalf_eq_mask _

/-- Settles O57: the map names the register, no PB, XLAT or unmapped address is a result register, and the listed words
are the registers'. -/
theorem readsHaveNoSideEffect : Obligations.ReadsHaveNoSideEffect := by
  intro s a
  refine ⟨?register, ?busy, fun hp => ?entries⟩
  case register =>
    intro w hw hfree
    obtain ⟨hlt, rfl⟩ := readReg_of_mem_registerWords hw
    refine memRead_reg (regAt_of_wordIndex s.params rfl hlt) (hfree.imp_right fun hres => ?_)
    rw [freeWhileBusy_controlReg _ hlt]
    exact decide_eq_false hres
  case busy =>
    intro hbusy hres
    have hlt := resultIndices_lt _ hres
    refine memRead_free (regAt_of_wordIndex s.params rfl hlt) hbusy ?_
    rw [freeWhileBusy_controlReg _ hlt]
    exact decide_eq_true hres
  case entries =>
    obtain ⟨-, hpb, -, hxlat⟩ := paramsLegal_depths hp
    refine ⟨fun i hi ha => ?_, fun i hi ha => ?_, fun ha => ?_⟩
    · rw [memRead_reg (regAt_pb s.params a i ha hi hpb) (.inr rfl), readReg_pb]
    · exact memRead_reg (regAt_xlat s.params a i ha hi hxlat) (.inr rfl)
    · exact memRead_unmapped (regAt_unmapped s.params a _ rfl ha)

/-! ### Writes -/

/-- The word index of an address given by its bits 11:2. -/
theorem wordIndex_of_field {a : BusAddr} {k : BitVec 10} (h : a.extractLsb' 2 10 = k) : wordIndex a = k.toNat :=
  congrArg BitVec.toNat h

/-- A write of a register that BUSY does not guard (20_memory.md R69). -/
theorem memWrite_reg {a : BusAddr} {s : State} {r : Reg} (v : Word) (hreg : regAt s.params a = r) (hcmd : r ≠ .cmd)
    (hguard : guardedWhileBusy r = false) : memWrite a v s = writeReg s v r := by
  subst hreg
  exact memWrite_unguarded a v s hcmd hguard

/-- A guarded write is dropped while BUSY is 1 (20_memory.md R69, 60_exceptions.md R258). -/
theorem memWrite_guarded {a : BusAddr} {s : State} (v : Word) (hbusy : s.status.busy = true)
    (hguard : guardedWhileBusy (regAt s.params a) = true) :
    memWrite a v s = recordError .writeWhileBusy 0xF#4 (wordAddr a) s := by
  rcases memWrite_cases a v s with ⟨-, hcmd, -⟩ | ⟨-, -, e⟩ | ⟨hfree, -⟩
  · rw [hcmd] at hguard
    cases hguard
  · exact e
  · exact absurd ⟨hbusy, .inr hguard⟩ hfree

/-- A CMD word is dropped while BUSY is 1 (20_memory.md R67, 60_exceptions.md R258). -/
theorem memWrite_cmd_busy {a : BusAddr} {s : State} (v : Word) (hbusy : s.status.busy = true)
    (hcmd : regAt s.params a = .cmd) : memWrite a v s = recordError .cmdWhileBusy (opField v) 0#12 s := by
  rcases memWrite_cases a v s with ⟨-, -, e⟩ | ⟨-, hguard, -⟩ | ⟨hfree, -⟩
  · exact e
  · rw [hcmd] at hguard
    cases hguard
  · exact absurd ⟨hbusy, .inl hcmd⟩ hfree

/-- CTRL, PB_COUNT and the timing registers are guarded (20_memory.md R69). -/
theorem guardedWhileBusy_controlReg {x : Nat} (h : x = 1 ∨ x = 6 ∨ 16 ≤ x ∧ x ≤ 25) :
    guardedWhileBusy (controlReg x) = true := by
  rcases h with rfl | rfl | ⟨hlo, hhi⟩
  · rfl
  · rfl
  · interval_cases x <;> rfl

/-- The addresses whose write BUSY guards: CTRL, PB_COUNT, the timing registers, PB and XLAT (20_memory.md R69). -/
theorem guardedWhileBusy_regAt {s : State} {a : BusAddr} (hp : ParamsLegal s)
    (h : wordIndex a = 1 ∨ wordIndex a = 6 ∨ 16 ≤ wordIndex a ∧ wordIndex a ≤ 25 ∨
      64 ≤ wordIndex a ∧ wordIndex a < 64 + s.params.pbDepth ∨
      256 ≤ wordIndex a ∧ wordIndex a < 256 + s.params.xlatDepth) :
    guardedWhileBusy (regAt s.params a) = true := by
  obtain ⟨-, hpb, -, hxlat⟩ := paramsLegal_depths hp
  have control (hc : wordIndex a = 1 ∨ wordIndex a = 6 ∨ 16 ≤ wordIndex a ∧ wordIndex a ≤ 25) :
      guardedWhileBusy (regAt s.params a) = true := by
    rw [regAt_of_wordIndex s.params rfl (by omega)]
    exact guardedWhileBusy_controlReg hc
  rcases h with hc | hc | hc | ⟨hlo, hhi⟩ | ⟨hlo, hhi⟩
  · exact control (.inl hc)
  · exact control (.inr (.inl hc))
  · exact control (.inr (.inr hc))
  · obtain ⟨i, hi⟩ := Nat.exists_eq_add_of_le hlo
    rw [regAt_pb s.params a i hi (by omega) hpb]
    rfl
  · obtain ⟨i, hi⟩ := Nat.exists_eq_add_of_le hlo
    rw [regAt_xlat s.params a i hi (by omega) hxlat]
    rfl

/-- Settles O55: all five kinds of address are guarded, and the error keeps the word's byte address. -/
theorem guardedWriteWhileBusyIsDropped : Obligations.GuardedWriteWhileBusyIsDropped := by
  intro s a v x hp hbusy hx h
  subst hx
  rw [memWrite_guarded v hbusy (guardedWhileBusy_regAt hp h), wordAddr_eq]
  rfl

/-- At the indices of the read-only registers no write is guarded, and none is a command (20_memory.md R61). -/
theorem readOnly_unguarded : ∀ x ∈ [0, 4, 7, 8, 9, 10, 11, 12, 13, 14],
    x < 64 ∧ controlReg x ≠ .cmd ∧ guardedWhileBusy (controlReg x) = false := by decide

/-- A read-only register keeps its value (20_memory.md R64). -/
theorem writeReg_readOnly (s : State) (v : Word) :
    ∀ x ∈ [0, 4, 7, 8, 9, 10, 11, 12, 13, 14], writeReg s v (controlReg x) = s := by
  simp only [List.forall_mem_cons]
  exact ⟨rfl, rfl, rfl, rfl, rfl, rfl, rfl, rfl, rfl, rfl, List.forall_mem_nil _⟩

/-- Settles O56: what stands at these addresses is neither CMD nor guarded, and stores nothing. -/
theorem readOnlyAndUnmappedAddressesIgnoreWrites : Obligations.ReadOnlyAndUnmappedAddressesIgnoreWrites := by
  refine fun s a v => ⟨fun ha => ?readOnly, fun _ ha => ?unmapped⟩
  case readOnly =>
    obtain ⟨hlt, hcmd, hguard⟩ := readOnly_unguarded _ ha
    rw [memWrite_reg v (regAt_of_wordIndex s.params rfl hlt) hcmd hguard]
    exact writeReg_readOnly s v _ ha
  case unmapped =>
    have hreg : regAt s.params a = .unmapped := regAt_unmapped s.params a _ rfl ha
    exact ⟨memWrite_reg v hreg (by decide) rfl, memRead_unmapped hreg⟩

/-- Writing 1 clears a W1C bit, writing 0 keeps it (20_memory.md R65). -/
theorem w1c_eq_ite (old written : Bool) : (old && !written) = if written then false else old := by
  cases written
  · exact Bool.and_true old
  · exact Bool.and_false old

/-- Settles O52: STATUS is neither CMD nor guarded, so its W1C write always takes effect. -/
theorem statusWriteClearsOnes : Obligations.StatusWriteClearsOnes := by
  intro s a v ha
  have hreg : regAt s.params a = .status := regAt_of_wordIndex s.params (wordIndex_of_field ha) (by decide)
  rw [memWrite_reg v hreg (by decide) rfl]
  simp only [writeReg, statusW1C, w1c_eq_ite]

/-- Settles O53: with BUSY 0 the write of PB_COUNT is accepted. -/
theorem pbCountWriteHandsOverFrame : Obligations.PbCountWriteHandsOverFrame :=
  fun _ _ v ha hbusy => memWrite_control v hbusy (wordIndex_of_field ha) (by decide)

/-- Settles O54: CMD starts the engine where BUSY is 0, and is the one register with an error of its own where it is 1. -/
theorem cmdWriteAcceptsOrDrops : Obligations.CmdWriteAcceptsOrDrops := by
  refine fun s a v ha => ⟨fun hbusy => ?accepted, fun hbusy => ?dropped⟩
  case accepted => exact memWrite_control v hbusy (wordIndex_of_field ha) (by decide)
  case dropped => exact memWrite_cmd_busy v hbusy (regAt_of_wordIndex s.params (wordIndex_of_field ha) (by decide))

/-! ### The order of host events -/

/-- WAIT ends where BUSY is 0 (30_encoding.md R101, log entry 6). -/
theorem hostEvent_wait_idle {s : State} (h : s.status.busy = false) : hostEvent .wait s = s :=
  if_neg (Bool.eq_false_iff.1 h)

/-- WAIT stays at the program's head while BUSY is 1 (30_encoding.md R101, log entry 6). -/
theorem hostEvent_wait_busy {s : State} (h : s.status.busy = true) :
    hostEvent .wait s = { s with program := .wait :: s.program } := if_pos h

/-- With no job the event at the program's head is taken off and takes effect (44_control.md R244). -/
theorem step_idle_event {s : State} {e : HostEvent} {rest : List HostEvent} (hjob : s.job = none)
    (hprog : s.program = e :: rest) : step s = .next (hostEvent e { s with program := rest }) := by
  rw [step_idle s hjob, hostStep_cons s e rest hprog]

/-- Settles O7: with no job a step is the host's, event by event. -/
theorem hostAccessesTakeEffectInOrder : Obligations.HostAccessesTakeEffectInOrder := by
  intro s hjob
  refine ⟨fun hprog => ?empty, fun a rest hprog => ?read, fun a v rest hprog => ?write, fun rest hprog hbusy => ?waitIdle,
    fun rest hprog hbusy => ?waitBusy, fun rest hprog => ?reset⟩
  case empty => rw [step_idle s hjob, hostStep_nil s hprog]
  case read => exact step_idle_event hjob hprog
  case write => exact step_idle_event hjob hprog
  case waitIdle =>
    have hends : hostEvent .wait { s with program := rest } = { s with program := rest } := hostEvent_wait_idle hbusy
    rw [step_idle_event hjob hprog, hends]
  case waitBusy =>
    have hstays : hostEvent .wait { s with program := rest } = { s with program := .wait :: rest } :=
      hostEvent_wait_busy hbusy
    rw [step_idle_event hjob hprog, hstays, ← hprog]
  case reset =>
    have hreset : hostEvent .powerOnReset { s with program := rest } = resetFrom s rest := powerOnReset_eq _
    rw [step_idle_event hjob hprog, hreset]

end Sys2Proof.Machine
end

section
/-! SUPPORT. The words of the formats and the rows of the table agree: each command's word is accepted by its row alone,
each row's words are the words of its commands, and the words no row accepts are those of the three cases of
30_encoding.md R99. -/

namespace Sys2Proof

/-! ### At most one row accepts a word -/

/-- The rows differ in a bit that both of them fix. -/
abbrev Row.Disagree (r r' : Row) : Prop := r.pattern &&& r'.mask ≠ r'.pattern &&& r.mask

/-- Any two rows of the table exclude each other (44_control.md R240). -/
theorem opcodeTable_pairwise_disagree : opcodeTable.Pairwise Row.Disagree := by decide

/-- Two rows that accept one word agree on the bits that both of them fix. -/
theorem patterns_agree {r r' : Row} {v : Word} (h : v &&& r.mask = r.pattern) (h' : v &&& r'.mask = r'.pattern) :
    r.pattern &&& r'.mask = r'.pattern &&& r.mask := by
  rw [← h, ← h', BitVec.and_assoc, BitVec.and_assoc, BitVec.and_comm r.mask]

/-- A word is accepted by one row at most. -/
theorem row_unique {r r' : Row} {v : Word} (hr : r ∈ opcodeTable) (hr' : r' ∈ opcodeTable)
    (h : v &&& r.mask = r.pattern) (h' : v &&& r'.mask = r'.pattern) : r = r' := by
  have hsymm : Std.Symm Row.Disagree := ⟨fun _ _ hd => hd.symm⟩
  by_contra hne
  exact opcodeTable_pairwise_disagree.forall hr hr' hne (patterns_agree h h')

/-- A word that a row accepts decodes to that row's command: no other row stands in the way. -/
theorem decode_of_row {r : Row} {v : Word} (hr : r ∈ opcodeTable) (h : v &&& r.mask = r.pattern) :
    decode v = .ok (r.command v) := by
  cases hd : decode v with
  | ok i =>
    obtain ⟨r', hr', h', rfl⟩ := decode_ok hd
    rw [row_unique hr hr' h h']
  | error e =>
    obtain ⟨hnone, -⟩ := (decode_error_iff v e).1 hd
    exact absurd h (hnone r hr)

/-! ### Decoding the word of a command -/

/-- Every command's word is in the command's own row (30_encoding.md R92 to R98). -/
theorem encode_in_row : ∀ i : Instr, Laws.EncodeInRow.Statement i
  | .nop => Laws.EncodeInRow.nop
  | .decode d => Laws.EncodeInRow.decode d
  | .decodeK d => Laws.EncodeInRow.decodeK d
  | .decodeJ d => Laws.EncodeInRow.decodeJ d
  | .dispatch => Laws.EncodeInRow.dispatch
  | .apply c p a => Laws.EncodeInRow.apply c p a
  | .mreset => Laws.EncodeInRow.mreset
  | .rearm => Laws.EncodeInRow.rearm
  | .lookup c sh => Laws.EncodeInRow.lookup c sh

/-- The decoder undoes the encoder, for every operand of every command. -/
theorem decode_encode (i : Instr) : decode (encode i) = .ok i := by
  obtain ⟨r, hr, haccepts, hcommand⟩ := encode_in_row i
  have hmatch : encode i &&& r.mask = r.pattern := by simpa [Row.accepts] using haccepts
  rw [decode_of_row hr hmatch, hcommand]

/-- Settles O1: a command's word is in its row, and no other row accepts it. -/
theorem decodeInvertsEncode : Obligations.DecodeInvertsEncode := fun i _ => decode_encode i

/-- Settles O4: each word is the encoder's word of the command it is claimed to stand for. -/
theorem formatWordsDecode : Obligations.FormatWordsDecode :=
  ⟨decode_encode .nop, decode_encode (.decode true), decode_encode (.decodeK false), decode_encode (.decodeJ true),
    decode_encode .dispatch, decode_encode (.apply 0x41#8 true true), decode_encode (.apply 0x0F#8 true false),
    decode_encode .mreset, decode_encode .rearm, decode_encode (.lookup 0x1E#8 true)⟩

/-! ### Encoding the command of a word -/

/-- A row without operands accepts one word, its pattern. -/
theorem eq_pattern_of_full_mask {v p : Word} (h : v &&& 0xFFFFFFFF#32 = p) : p = v :=
  h.symm.trans BitVec.and_allOnes

/-- The bits of a DECODE word, field by field (30_encoding.md R93). -/
theorem getLsbD_encodeDecode (mode : BitVec 2) (d : Bool) (i : Nat) :
    (encodeDecode mode d).getLsbD i =
      if i < 4 then (1#4).getLsbD i else if i = 4 then d else mode.getLsbD (i - 5) := by
  change (0#25 ++ mode ++ BitVec.ofBool d ++ 1#4).getLsbD i = _
  simp only [BitVec.getLsbD_append, BitVec.getLsbD_ofBool]
  grind

/-- The bits of an APPLY word, field by field (30_encoding.md R95). -/
theorem getLsbD_encode_apply (c : Byte) (p a : Bool) (i : Nat) :
    (encode (.apply c p a)).getLsbD i =
      if i < 4 then (3#4).getLsbD i else if i < 8 then false else if i < 16 then c.getLsbD (i - 8)
      else if i = 16 then p else if i = 17 then a else false := by
  change (0#14 ++ BitVec.ofBool a ++ BitVec.ofBool p ++ c ++ 0#4 ++ 3#4).getLsbD i = _
  simp only [BitVec.getLsbD_append, BitVec.getLsbD_ofBool]
  grind

/-- The bits of a LOOKUP word, field by field (30_encoding.md R98). -/
theorem getLsbD_encode_lookup (c : Byte) (sh : Bool) (i : Nat) :
    (encode (.lookup c sh)).getLsbD i =
      if i < 4 then (6#4).getLsbD i else if i < 8 then false else if i < 16 then c.getLsbD (i - 8)
      else if i = 16 then sh else false := by
  change (0#15 ++ BitVec.ofBool sh ++ c ++ 0#4 ++ 6#4).getLsbD i = _
  simp only [BitVec.getLsbD_append, BitVec.getLsbD_ofBool]
  grind

/-- The three DECODE rows leave D free, and nothing else. -/
theorem encodeDecode_of_row (mode : BitVec 2) {v : Word} (h : v &&& 0xFFFFFFEF#32 = encodeDecode mode false) :
    encodeDecode mode (v.getLsbD 4) = v :=
  eq_of_row v _ _ _ h fun i hi => by
    rw [getLsbD_encodeDecode, getLsbD_encodeDecode]
    interval_cases i <;> simp

/-- The APPLY row leaves CODE, P and A free, and nothing else. -/
theorem encode_apply_of_row {v : Word} (h : v &&& 0xFFFC00FF#32 = 3#32) :
    encode (.apply (codeField v) (v.getLsbD 16) (v.getLsbD 17)) = v :=
  eq_of_row v _ _ _ h fun i hi => by
    rw [getLsbD_encode_apply]
    interval_cases i <;> simp [codeField]

/-- The LOOKUP row leaves CODE and S free, and nothing else. -/
theorem encode_lookup_of_row {v : Word} (h : v &&& 0xFFFE00FF#32 = 6#32) :
    encode (.lookup (codeField v) (v.getLsbD 16)) = v :=
  eq_of_row v _ _ _ h fun i hi => by
    rw [getLsbD_encode_lookup]
    interval_cases i <;> simp [codeField]

/-- A row's operands are all the bits its mask leaves free, so a word of the row is the word of its command. -/
theorem encode_command_of_row {v : Word} :
    ∀ r ∈ opcodeTable, v &&& r.mask = r.pattern → encode (r.command v) = v := by
  simp only [opcodeTable, List.forall_mem_cons, List.not_mem_nil, false_implies, implies_true, and_true]
  exact ⟨eq_pattern_of_full_mask, encodeDecode_of_row 0#2, encodeDecode_of_row 1#2,
    encodeDecode_of_row 2#2, eq_pattern_of_full_mask, encode_apply_of_row, eq_pattern_of_full_mask,
    eq_pattern_of_full_mask, encode_lookup_of_row⟩

/-- Settles O2: the word is in the row of its command, and the command holds all the bits that row leaves free. -/
theorem encodeInvertsDecode : Obligations.EncodeInvertsDecode := by
  intro v i h
  obtain ⟨r, hr, hmatch, rfl⟩ := decode_ok h
  exact encode_command_of_row r hr hmatch

/-! ### The words that no row accepts -/

/-- MODE = word[6:5], the field that tells the three DECODE forms apart (30_encoding.md R93). -/
def modeField (v : Word) : BitVec 2 := v.extractLsb' 5 2

/-- The word names a command by OP and, for a DECODE, by MODE (30_encoding.md R92 to R98). -/
abbrev NamesCommand (v : Word) : Prop := (opField v).toNat < 7 ∧ ¬ (opField v = 1#4 ∧ modeField v = 3#2)

/-- The bits that the format of an opcode reserves (30_encoding.md R92 to R98). -/
def reservedBits (op : BitVec 4) : Word :=
  if op = 1#4 then 0xFFFFFF80#32 else if op = 3#4 then 0xFFFC00F0#32 else if op = 6#4 then 0xFFFE00F0#32
  else 0xFFFFFFF0#32

/-- The bits of MODE where the opcode has that field. -/
def modeBits (op : BitVec 4) : Word := if op = 1#4 then 0x60#32 else 0#32

/-- A row fixes OP, MODE where there is one, and its format's reserved bits, these to 0; it names a command. -/
theorem row_fixes : ∀ r ∈ opcodeTable,
    r.mask = 0xF#32 ||| modeBits (opField r.pattern) ||| reservedBits (opField r.pattern) ∧
    r.pattern &&& r.mask = r.pattern ∧ r.pattern &&& reservedBits (opField r.pattern) = 0#32 ∧
    NamesCommand r.pattern := by decide

/-- Every OP and MODE that name a command have their row. -/
theorem row_of_fields : ∀ (op : BitVec 4) (mode : BitVec 2), op.toNat < 7 → ¬ (op = 1#4 ∧ mode = 3#2) →
    ∃ r ∈ opcodeTable, op = opField r.pattern ∧ (op = 1#4 → mode = modeField r.pattern) := by decide

/-- Agreement under a union of masks is agreement under each. -/
theorem and_or_eq_iff (v p a b : Word) :
    v &&& (a ||| b) = p &&& (a ||| b) ↔ v &&& a = p &&& a ∧ v &&& b = p &&& b := by
  constructor
  · intro h
    have agree_under {c : Word} (hc : (a ||| b) &&& c = c) : v &&& c = p &&& c := by
      rw [← hc, ← BitVec.and_assoc, ← BitVec.and_assoc, h]
    exact ⟨agree_under (by ext i hi; cases ha : a[i] <;> simp [ha]),
      agree_under (by ext i hi; cases hb : b[i] <;> simp [hb])⟩
  · rintro ⟨ha, hb⟩
    rw [BitVec.and_or_distrib_left, BitVec.and_or_distrib_left, ha, hb]

/-- Agreement under the mask of OP is agreement of OP. -/
theorem and_opMask_eq_iff (v p : Word) : v &&& 0xF#32 = p &&& 0xF#32 ↔ opField v = opField p := by
  rw [(op_mask_iff p (opField p)).2 rfl]
  exact op_mask_iff v (opField p)

/-- MODE in its place in the word. -/
theorem and_modeMask (v : Word) : v &&& 0x60#32 = (modeField v).setWidth 32 <<< 5 := by
  apply BitVec.eq_of_getLsbD_eq
  intro i hi
  interval_cases i <;> simp [modeField]

/-- The mask of MODE keeps MODE. -/
theorem modeField_and_modeMask (v : Word) : modeField (v &&& 0x60#32) = modeField v := by
  ext i hi
  interval_cases i <;> simp [modeField]

/-- Agreement under the mask of MODE is agreement of MODE. -/
theorem and_modeMask_eq_iff (v p : Word) : v &&& 0x60#32 = p &&& 0x60#32 ↔ modeField v = modeField p := by
  constructor
  · intro h
    rw [← modeField_and_modeMask, h, modeField_and_modeMask]
  · intro h
    rw [and_modeMask, and_modeMask, h]

/-- A row accepts the words with its OP, with its MODE where there is one, and with no reserved bit set. -/
theorem row_matches_iff {r : Row} (hr : r ∈ opcodeTable) (v : Word) :
    v &&& r.mask = r.pattern ↔
      opField v = opField r.pattern ∧ (opField v = 1#4 → modeField v = modeField r.pattern) ∧
        v &&& reservedBits (opField v) = 0#32 := by
  obtain ⟨hmask, hfixed, hreserved, -⟩ := row_fixes r hr
  have hmode (op : BitVec 4) : v &&& modeBits op = r.pattern &&& modeBits op ↔
      (op = 1#4 → modeField v = modeField r.pattern) := by
    unfold modeBits
    split
    · next h => simp [h, and_modeMask_eq_iff]
    · next h => simp [h]
  calc v &&& r.mask = r.pattern
    _ ↔ v &&& r.mask = r.pattern &&& r.mask := by rw [hfixed]
    _ ↔ (opField v = opField r.pattern ∧ (opField r.pattern = 1#4 → modeField v = modeField r.pattern)) ∧
          v &&& reservedBits (opField r.pattern) = 0#32 := by
      rw [hmask, and_or_eq_iff, and_or_eq_iff, and_opMask_eq_iff, hmode, hreserved]
    _ ↔ opField v = opField r.pattern ∧ (opField v = 1#4 → modeField v = modeField r.pattern) ∧
          v &&& reservedBits (opField v) = 0#32 := by
      rw [and_assoc]
      exact and_congr_right fun hop => by rw [hop]

/-- A word is legal where it names a command and sets no bit that the command's format reserves. -/
theorem row_exists_iff (v : Word) :
    (∃ r ∈ opcodeTable, v &&& r.mask = r.pattern) ↔ NamesCommand v ∧ v &&& reservedBits (opField v) = 0#32 := by
  constructor
  · rintro ⟨r, hr, hmatch⟩
    obtain ⟨hop, hmode, hzero⟩ := (row_matches_iff hr v).1 hmatch
    obtain ⟨-, -, -, hopcode, hmodes⟩ := row_fixes r hr
    exact ⟨⟨hop ▸ hopcode, fun ⟨h1, h3⟩ => hmodes ⟨hop ▸ h1, hmode h1 ▸ h3⟩⟩, hzero⟩
  · rintro ⟨⟨hopcode, hmode⟩, hzero⟩
    obtain ⟨r, hr, hrop, hrmode⟩ := row_of_fields (opField v) (modeField v) hopcode hmode
    exact ⟨r, hr, (row_matches_iff hr v).2 ⟨hrop, hrmode, hzero⟩⟩

/-- The decoder refuses the words that are not legal, with the reason `illegalReason` names. -/
theorem decode_error_iff_fields (v : Word) (e : Illegal) :
    decode v = .error e ↔
      ¬ (NamesCommand v ∧ v &&& reservedBits (opField v) = 0#32) ∧ illegalReason v = e := by
  rw [decode_error_iff, ← row_exists_iff]
  simp only [not_exists, not_and]

theorem illegalReason_reservedOpcode_iff (v : Word) : illegalReason v = .reservedOpcode ↔ 7 ≤ (opField v).toNat := by
  unfold illegalReason
  split_ifs with hop <;> simp [hop]

theorem illegalReason_reservedMode_iff (v : Word) :
    illegalReason v = .reservedMode ↔ opField v = 1#4 ∧ modeField v = 3#2 := by
  unfold illegalReason modeField
  split_ifs with hop hmode
  · have hop' : opField v ≠ 1#4 := fun h => absurd hop (by rw [h]; decide)
    simp [hop']
  · simp [hmode]
  · simp [hmode]

theorem illegalReason_reservedBits_iff (v : Word) : illegalReason v = .reservedBits ↔ NamesCommand v := by
  unfold illegalReason NamesCommand modeField
  split_ifs with hop hmode
  · simp [Nat.not_lt.2 hop]
  · simp [hmode]
  · simp [Nat.lt_of_not_le hop, hmode]

/-- Settles O3: of the words no row accepts, those that name no command are refused for that, and the others for their
reserved bits. -/
theorem illegalWordsAreThoseOfTheFormats : Obligations.IllegalWordsAreThoseOfTheFormats := by
  intro v
  refine ⟨?opcode, ?mode, ?bits⟩
  case opcode =>
    rw [decode_error_iff_fields, illegalReason_reservedOpcode_iff]
    exact and_iff_right_of_imp fun hop ⟨⟨hnamed, _⟩, _⟩ => absurd hnamed (Nat.not_lt.2 hop)
  case mode =>
    rw [decode_error_iff_fields, illegalReason_reservedMode_iff]
    exact and_iff_right_of_imp fun hmode ⟨⟨_, hnamed⟩, _⟩ => hnamed hmode
  case bits =>
    rw [decode_error_iff_fields, illegalReason_reservedBits_iff]
    constructor
    · rintro ⟨hillegal, hop, hmode⟩
      exact ⟨hop, hmode, fun hzero => hillegal ⟨⟨hop, hmode⟩, hzero⟩⟩
    · rintro ⟨hop, hmode, hset⟩
      exact ⟨fun ⟨_, hzero⟩ => hset hzero, hop, hmode⟩

end Sys2Proof
end

section
/-! SUPPORT. The window match, the frame, and what the keyboard decoder answers for every frame (40_frame_decode.md
R130 to R144). -/

namespace Sys2Proof.Machine

/-! ### The window match -/

/-- Settles O36: R130's two inequalities, moved to the integers. -/
theorem windowMatchIsExact : Obligations.WindowMatchIsExact := by
  intro d w
  rw [inWindow_iff, winNom, winTol]
  omega

/-! ### The frame -/

/-- Pulse i of the frame is PB[i] (R131). -/
theorem pulse_frame {s : State} {i : Nat} (h : i < (frame s).length) : pulse (frame s) i = pbEntry s.mem i := by
  rw [frame_length] at h
  simp only [pulse, frame, List.getD_eq_getElem?_getD, List.getElem?_map, List.getElem?_range h]
  rfl

/-- A host read of PB[i] shows pulse i of the frame (10_state.md R29). -/
theorem readReg_pb_eq_pulse {s : State} {i : Nat} (h : i < (frame s).length) :
    readReg s (.pb i) = (pulse (frame s) i).setWidth 32 := by
  rw [pulse_frame h, readReg_pb, ← lowHalf_eq_mask]
  rfl

/-! ### The keyboard decoder -/

/-- The group that enters the accumulator stands in its top two bits (R143). -/
theorem accumulate_top (acc : Word) (g : BitVec 2) : (accumulate acc g).extractLsb' 30 2 = g := by
  apply BitVec.eq_of_getLsbD_eq
  intro i hi
  simp only [accumulate, BitVec.getLsbD_extractLsb', BitVec.getLsbD_or, BitVec.getLsbD_ushiftRight,
    BitVec.getLsbD_shiftLeft, BitVec.getLsbD_setWidth]
  interval_cases i <;> simp

/-- The groups already in the accumulator move down by two bits (R143). -/
theorem accumulate_shifted (acc : Word) (g : BitVec 2) {i : Nat} (hi : i + 2 ≤ 30) :
    (accumulate acc g).extractLsb' i 2 = acc.extractLsb' (i + 2) 2 := by
  apply BitVec.eq_of_getLsbD_eq
  intro k hk
  simp only [accumulate, BitVec.getLsbD_extractLsb', BitVec.getLsbD_or, BitVec.getLsbD_ushiftRight,
    BitVec.getLsbD_shiftLeft, show i + k < 30 by omega, decide_true, Bool.not_true, Bool.and_false, Bool.false_and,
    Bool.or_false]
  congr 2
  omega

/-- A frame shorter than 17 pulses is rejected at once (R140). -/
theorem kbd_short {t : Timing} {fr : List Dur} {w : Work} (h : fr.length < 17) : kbd t fr w = (.reject .short 0, w) :=
  if_pos h

/-- KBD of a frame of at least 17 pulses: the two header tests, then the pairs (R141, R142). -/
theorem kbd_long (t : Timing) {fr : List Dur} (w : Work) (h : 17 ≤ fr.length) :
    kbd t fr w =
      if inWindow (pulse fr 0) t.khm then
        if inWindow (pulse fr 1) t.khs then kbdPairs t 14 (fr.drop 2) { w with acc := 0#32, idx := 2 }
        else (.reject .hdrSpace 1, w)
      else (.reject .hdrMark 0, w) := by
  match fr, h with
  | _ :: _ :: _, h => exact if_neg (Nat.not_lt.2 h)

/-- The pairs' loop at the end of the frame (R142). -/
theorem kbdPairs_noMark {t : Timing} {k : Nat} {fr : List Dur} {w : Work} (h : fr.length ≤ w.idx) :
    kbdPairs t (k + 1) (fr.drop w.idx) w = (.reject .exhausted w.idx, w) := by
  rw [List.drop_eq_nil_of_le h, kbdPairs]

/-- The pairs' loop at a pulse that is no mark (R142). -/
theorem kbdPairs_badMark {t : Timing} {k : Nat} {fr : List Dur} {w : Work} (h : w.idx < fr.length)
    (hm : inWindow (pulse fr w.idx) t.kbm = false) :
    kbdPairs t (k + 1) (fr.drop w.idx) w = (.reject .bitMark w.idx, w) := by
  rw [drop_eq_pulse_cons fr _ h, kbdPairs, hm]
  rfl

/-- The pairs' loop at a mark that is the frame's last pulse (R142). -/
theorem kbdPairs_noSpace {t : Timing} {k : Nat} {fr : List Dur} {w : Work} (h : fr.length = w.idx + 1)
    (hm : inWindow (pulse fr w.idx) t.kbm = true) :
    (kbdPairs t (k + 1) (fr.drop w.idx) w).1 = .reject .exhausted (w.idx + 1) := by
  rw [drop_eq_pulse_cons fr _ (by omega), List.drop_eq_nil_of_le h.le, kbdPairs, if_pos hm]

/-- The pairs' loop at a mark and a space of no band (R142). -/
theorem kbdPairs_noBand {t : Timing} {k : Nat} {fr : List Dur} {w : Work} (h : w.idx + 1 < fr.length)
    (hm : inWindow (pulse fr w.idx) t.kbm = true) (hb : NoBand t (pulse fr (w.idx + 1))) :
    (kbdPairs t (k + 1) (fr.drop w.idx) w).1 = .reject .band (w.idx + 1) := by
  rw [drop_eq_pulse_cons fr _ (by omega), drop_eq_pulse_cons fr _ h, kbdPairs, if_pos hm]
  simp only [band_of_noBand t _ hb]

/-- The working registers after k good pairs: IDX is at the next pair, and the groups taken so far stand in the accumulator
from the top down, the last one highest (R143). After the last pair IDX no longer moves. -/
structure KbdProgress (g : Nat → BitVec 2) (k : Nat) (w : Work) : Prop where
  idx : k < 14 → w.idx = 2 + 2 * k
  groups : ∀ j < k, w.acc.extractLsb' (32 - 2 * (k - j)) 2 = g j

/-- One more pair accepted. -/
theorem KbdProgress.next {g : Nat → BitVec 2} {k : Nat} {w : Work} (h : KbdProgress g k w) (hk : k < 14) :
    KbdProgress g (k + 1)
      { w with acc := accumulate w.acc (g k), idx := if 13 - k = 0 then w.idx + 1 else w.idx + 2 } where
  idx hlast := by
    have := h.idx hk
    rw [if_neg (by omega)]
    show w.idx + 2 = _
    omega
  groups j hj := by
    show (accumulate w.acc (g k)).extractLsb' _ 2 = g j
    rcases Nat.lt_succ_iff_lt_or_eq.1 hj with hlt | rfl
    · rw [accumulate_shifted _ _ (by omega), ← h.groups j hlt]
      congr 1
      omega
    · rw [show 32 - 2 * (j + 1 - j) = 30 by omega, accumulate_top]

/-- Good pairs lead the pairs' loop on (R142, R143). -/
theorem kbdPairs_progress {t : Timing} {fr : List Dur} {g : Nat → BitVec 2} {w : Work} (hw : w.idx = 2) (k : Nat)
    (hk : k ≤ 14) (h : ∀ j < k, KeyboardPair t fr j (g j)) :
    ∃ w', KbdProgress g k w' ∧ kbdPairs t 14 (fr.drop 2) w = kbdPairs t (14 - k) (fr.drop (2 + 2 * k)) w' := by
  induction k with
  | zero => exact ⟨w, ⟨fun _ => hw, fun j hj => absurd hj j.not_lt_zero⟩, rfl⟩
  | succ k ih =>
    obtain ⟨w', hp, e⟩ := ih (by omega) fun j hj => h j (by omega)
    obtain ⟨hlen, hmark, hband⟩ := h k k.lt_succ_self
    refine ⟨_, hp.next hk, ?_⟩
    rw [e, show 14 - k = 13 - k + 1 by omega, drop_eq_pulse_cons fr _ (by omega),
      drop_eq_pulse_cons fr (2 + 2 * k + 1) (by omega),
      kbdPairs_pair t _ _ _ _ w' (g k) hmark
        (band_of_leastBand t _ _ (by rwa [show 2 + 2 * k + 1 = 3 + 2 * k by omega])),
      show 14 - (k + 1) = 13 - k by omega, show 2 + 2 * k + 1 + 1 = 2 + 2 * (k + 1) by omega]

/-- Bits 2j+1:2j of the payload, the accumulator shifted down by four, are the group of pair j (R143, R144). -/
theorem KbdProgress.payload {g : Nat → BitVec 2} {w : Work} (h : KbdProgress g 14 w) (j : Nat) (hj : j < 14) :
    (w.acc >>> 4).extractLsb' (2 * j) 2 = g j := by
  rw [← h.groups j hj, show 32 - 2 * (14 - j) = 4 + 2 * j by omega]
  apply BitVec.eq_of_getLsbD_eq
  intro i hi
  simp only [BitVec.getLsbD_extractLsb', BitVec.getLsbD_ushiftRight, Nat.add_assoc]

/-- Settles O37: the two header tests, then the loop's progress up to the first pair that fails, or to the fourteenth. -/
theorem keyboardDecoderAnswers : Obligations.KeyboardDecoderAnswers := by
  refine ⟨fun s => ⟨frame_length s, fun i hi => readReg_pb_eq_pulse hi⟩, fun t fr w => ⟨?short, ?hdrMark, ?hdrSpace, ?pairs⟩⟩
  case short => exact fun h => by rw [kbd_short h]
  case hdrMark =>
    intro hlen hm
    rw [kbd_long t w hlen, hm]
    rfl
  case hdrSpace =>
    intro hlen hm hs
    rw [kbd_long t w hlen, hm, hs]
    rfl
  case pairs =>
    intro g k hlen ⟨hm, hs⟩ hpairs
    have hloop : kbd t fr w = kbdPairs t 14 (fr.drop 2) { w with acc := 0#32, idx := 2 } := by
      rw [kbd_long t w hlen, if_pos hm, if_pos hs]
    constructor
    · intro hk
      obtain ⟨w', hp, e⟩ := kbdPairs_progress (w := { w with acc := 0#32, idx := 2 }) rfl k hk.le hpairs
      have hidx := hp.idx hk
      have hspace : 3 + 2 * k = w'.idx + 1 := by omega
      rw [hloop, e, show 14 - k = 13 - k + 1 by omega, hspace, ← hidx]
      exact ⟨fun h => by rw [kbdPairs_noMark h], fun h hbad => by rw [kbdPairs_badMark h hbad], kbdPairs_noSpace,
        kbdPairs_noBand⟩
    · rintro rfl
      obtain ⟨w', hp, e⟩ := kbdPairs_progress (w := { w with acc := 0#32, idx := 2 }) rfl 14 le_rfl hpairs
      have hok : (kbd t fr w).1 = .ok (w'.acc >>> 4) 30 := by rw [hloop, e, Nat.sub_self, kbdPairs]
      exact ⟨_, hok, hp.payload, (kbd_ok t fr w _ _ hok).2⟩

end Sys2Proof.Machine
end

section
/-! SUPPORT. What the joystick decoder answers for every frame (40_frame_decode.md R150 to R152). -/

namespace Sys2Proof.Machine

/-- A frame shorter than 17 pulses is rejected at once (R150). -/
theorem joy_short {t : Timing} {c : Ctrl} {fr : List Dur} {w : Work} (h : fr.length < 17) :
    joy t c fr w = (.reject .short 0, w) :=
  if_pos h

/-- JOY of a frame of at least 17 pulses: the header test, then the bit loop (R150, R151). -/
theorem joy_long (t : Timing) (c : Ctrl) {fr : List Dur} (w : Work) (h : 17 ≤ fr.length) :
    joy t c fr w =
      if inWindow (pulse fr 0) t.jhm then
        joyBits t c (fr.drop 1) { w with skip := c.joySkipInit, data := 0#16, bits := 0, idx := 1 }
      else (.reject .hdrMark 0, w) := by
  match fr, h with
  | _ :: _, h => exact if_neg (Nat.not_lt.2 h)

/-- The bit loop is over after 16 bits (R151). -/
theorem joyBits_done {t : Timing} {c : Ctrl} {ds : List Dur} {w : Work} (h : w.bits = 16) :
    joyBits t c ds w = (.ok w.data w.idx, w) := by
  cases ds <;> rw [joyBits, if_neg (by omega)]

/-- The bit loop at the end of the frame (R151). -/
theorem joyBits_exhausted {t : Timing} {c : Ctrl} {fr : List Dur} {w : Work} (hb : w.bits < 16)
    (h : fr.length ≤ w.idx) : joyBits t c (fr.drop w.idx) w = (.reject .exhausted w.idx, w) := by
  rw [List.drop_eq_nil_of_le h, joyBits, if_pos hb]

/-- The bit loop at a pulse of neither class (R151). -/
theorem joyBits_neither {t : Timing} {c : Ctrl} {fr : List Dur} {w : Work} (hb : w.bits < 16) (h : w.idx < fr.length)
    (hn : JoyNeither t (pulse fr w.idx)) : joyBits t c (fr.drop w.idx) w = (.reject .classMiss w.idx, w) := by
  rw [drop_eq_pulse_cons fr _ h, joyBits, if_pos hb, hn.1, hn.2]
  rfl

/-- The bit loop passes over a short pulse with SKIP = 1 (R151). -/
theorem joyBits_skip {t : Timing} {c : Ctrl} {fr : List Dur} {w : Work} (hb : w.bits < 16) (h : w.idx < fr.length)
    (hskip : w.skip = true) (hs : JoyShort t (pulse fr w.idx)) :
    joyBits t c (fr.drop w.idx) w = joyBits t c (fr.drop (w.idx + 1)) { w with skip := false, idx := w.idx + 1 } := by
  rw [drop_eq_pulse_cons fr _ h, joyBits, if_pos hb, if_pos (show inWindow _ _ = true from hs), if_pos hskip]

/-- An emitted bit enters DATA from below (R151). -/
theorem emitBit_data (b : Bool) (w : Work) {i : Nat} (hi : i < 16) :
    (emitBit b w).data.getLsbD i = if i = 0 then b else w.data.getLsbD (i - 1) := by
  simp only [emitBit, BitVec.getLsbD_or, BitVec.getLsbD_shiftLeft, BitVec.getLsbD_setWidth, BitVec.getLsbD_ofBool, hi]
  cases i <;> simp

/-- The working registers after m bits, E k being IDX after k bits: the bits stand in DATA with the first one highest
(R151). -/
structure JoyProgress (c : Ctrl) (E : Nat → Nat) (m : Nat) (w : Work) : Prop where
  idx : w.idx = E m
  bits : w.bits = m
  skip : w.skip = joySkip c m
  data : ∀ k < m, w.data.getLsbD (m - 1 - k) = pulseBit c (E (k + 1) - 1)

/-- One more bit emitted. -/
theorem JoyProgress.next {c : Ctrl} {E : Nat → Nat} {m : Nat} {w : Work} (h : JoyProgress c E m w) (hm : m < 16) :
    JoyProgress c E (m + 1) { emitBit (pulseBit c (E (m + 1) - 1)) w with idx := E (m + 1) } where
  idx := rfl
  bits := congrArg (· + 1) h.bits
  skip := rfl
  data k hk := by
    refine (emitBit_data _ w (by omega)).trans ?_
    rcases Nat.lt_succ_iff_lt_or_eq.1 hk with hlt | rfl
    · rw [if_neg (by omega), ← h.data k hlt]
      congr 1
      omega
    · rw [if_pos (by omega)]

/-- Emitted bits lead the bit loop on (R151). -/
theorem joyBits_progress {t : Timing} {c : Ctrl} {fr : List Dur} {E : Nat → Nat} {w : Work} (h0 : JoyProgress c E 0 w)
    (m : Nat) (hm : m ≤ 16) (h : ∀ k < m, JoyBit t fr (joySkip c k) (E k) (E (k + 1))) :
    ∃ w', JoyProgress c E m w' ∧ joyBits t c (fr.drop (E 0)) w = joyBits t c (fr.drop (E m)) w' := by
  induction m with
  | zero => exact ⟨w, h0, rfl⟩
  | succ m ih =>
    obtain ⟨w', hp, e⟩ := ih (by omega) fun k hk => h k (by omega)
    have hbit := h m m.lt_succ_self
    rw [← hp.idx, ← hp.skip] at hbit
    refine ⟨_, hp.next hm, ?_⟩
    rw [e, ← hp.idx, joyBits_bit t c fr w' _ (by have := hp.bits; omega) hbit]

/-- An accepting bit loop takes at least one pulse for each missing bit, at most two, and one less where SKIP is 0; all of
them are in the frame (R151, R152). -/
theorem joyBits_ok_bounds {t : Timing} {c : Ctrl} {d : BitVec 16} {n : Nat} (ds : List Dur) (w : Work)
    (hb : w.bits ≤ 16) (h : (joyBits t c ds w).1 = .ok d n) :
    w.idx + (16 - w.bits) ≤ n ∧ n ≤ w.idx + (2 * (16 - w.bits) - if w.skip then 0 else 1) ∧ n ≤ w.idx + ds.length := by
  induction ds generalizing w with
  | nil =>
    rw [joyBits] at h
    split at h
    · cases h
    · injection h with _ hn
      omega
  | cons p ds ih =>
    have emitted (b : Bool) (hlt : w.bits < 16)
        (h : (joyBits t c ds { emitBit b w with idx := w.idx + 1 }).1 = .ok d n) :
        w.idx + (16 - w.bits) ≤ n ∧ n ≤ w.idx + (2 * (16 - w.bits) - 1) ∧ n ≤ w.idx + (ds.length + 1) := by
      have := ih _ (show w.bits + 1 ≤ 16 from hlt) h
      simp only [emitBit, if_true] at this
      omega
    rw [joyBits] at h
    rw [List.length_cons]
    split at h
    · next hlt =>
      split at h
      · split at h
        · next hskip =>
          have := ih { w with skip := false, idx := w.idx + 1 } hb h
          simp only [Bool.false_eq_true, if_false] at this
          rw [hskip, if_pos rfl]
          omega
        · next hskip =>
          have := emitted _ hlt h
          rw [if_neg hskip]
          omega
      · split at h
        · have := emitted _ hlt h
          split <;> omega
        · cases h
    · injection h with _ hn
      omega

/-- An accepted joystick frame takes 17 to 33 pulses, all of them in the frame (R152). -/
theorem joy_ok_bounds {t : Timing} {c : Ctrl} {fr : List Dur} {w : Work} {d : BitVec 16} {n : Nat}
    (h : (joy t c fr w).1 = .ok d n) : 17 ≤ n ∧ n ≤ 33 ∧ n ≤ fr.length := by
  by_cases hlen : fr.length < 17
  · rw [joy_short hlen] at h
    cases h
  · rw [joy_long t c w (by omega)] at h
    split at h
    · have := joyBits_ok_bounds _ _ (Nat.zero_le 16) h
      simp only [List.length_drop] at this
      omega
    · cases h

/-- Settles O38: the header test, then the loop's progress up to the first pulse that fails, or to the sixteenth bit. -/
theorem joystickDecoderAnswers : Obligations.JoystickDecoderAnswers := by
  intro t c fr w
  refine ⟨fun h => by rw [joy_short h], ?hdrMark, ?bits, fun d n => joy_ok_bounds⟩
  case hdrMark =>
    intro hlen hm
    rw [joy_long t c w hlen, hm]
    rfl
  case bits =>
    intro E m hlen hm hE hbits
    have hloop := joy_long t c w hlen
    rw [if_pos hm, ← hE] at hloop
    have h0 : JoyProgress c E 0 { w with skip := c.joySkipInit, data := 0#16, bits := 0, idx := E 0 } :=
      ⟨rfl, rfl, rfl, fun k hk => absurd hk k.not_lt_zero⟩
    constructor
    · intro hlt
      obtain ⟨w', hp, e⟩ := joyBits_progress h0 m hlt.le hbits
      have hb : w'.bits < 16 := hp.bits.trans_lt hlt
      rw [hloop, e, ← hp.idx, ← hp.skip]
      refine ⟨fun h => by rw [joyBits_exhausted hb h], fun h hn => by rw [joyBits_neither hb h hn], ?_, ?_⟩
      · intro hskip hs hl
        rw [joyBits_skip hb (by omega) hskip hs, joyBits_exhausted (w := { w' with skip := false, idx := w'.idx + 1 }) hb hl.le]
      · intro hskip hs hl hn
        rw [joyBits_skip hb (by omega) hskip hs,
          joyBits_neither (w := { w' with skip := false, idx := w'.idx + 1 }) hb hl hn]
    · rintro rfl
      obtain ⟨w', hp, e⟩ := joyBits_progress h0 16 le_rfl hbits
      refine ⟨w'.data, by rw [hloop, e, joyBits_done hp.bits, hp.idx], hp.data⟩

end Sys2Proof.Machine
end

section
/-! SUPPORT. What DECODE, DECODE.K and DECODE.J do with what their SELECT yields, and REARM (40_frame_decode.md R155 to R160). -/

namespace Sys2Proof.Machine

/-! ### DIAG -/

/-- What a decoder that did not accept leaves in DIAG (10_state.md R32). -/
theorem missed_diag {α : Type} {r : Attempt α} {code : BitVec 4} {idx : Nat} (h : Missed r code idx) :
    attemptCode r = code ∧ attemptIndex r = idx := by
  rcases h with ⟨rfl, rfl, rfl⟩ | ⟨q, rfl, hq⟩
  · exact ⟨rfl, rfl⟩
  · have codes : ∀ e ∈ diagReasons, reasonCode e.1 = e.2 := by decide
    exact ⟨codes _ hq, rfl⟩

theorem missed_not_ok {α : Type} {r : Attempt α} {code : BitVec 4} {idx : Nat} (h : Missed r code idx) (x : α) (n : Nat) :
    r ≠ .ok x n := by
  rintro rfl
  rcases h with ⟨h, -⟩ | ⟨q, h, -⟩ <;> cases h

/-- DIAG with the joystick decoder not tried (R156). -/
theorem diagWord_kbd (p : Word) (n : Nat) :
    diagWord (.ok p n) .notTried = (0#16 ++ BitVec.ofNat 8 n ++ 0#4 ++ 1#4 : BitVec 32) := rfl

/-! ### The event registers -/

/-- The Key bit of the header is payload bit 17 (30_encoding.md R112, R113). -/
theorem hdrIsKey_payloadHdr (p : Word) : hdrIsKey (payloadHdr p) = p.getLsbD 17 := by
  simp [hdrIsKey, payloadHdr, Config.hdrLo]

theorem ev0Word_keyEvent (p : Word) :
    ev0Word (keyEvent p) =
      (0#8 ++ p.extractLsb' 16 8 ++ 0#6 ++ BitVec.ofBool (p.getLsbD 22) ++ BitVec.ofBool (p.getLsbD 23) ++ 0#6
        ++ 1#2 : BitVec 32) := by
  apply BitVec.eq_of_getLsbD_eq
  intro i hi
  simp only [ev0Word, keyEvent, kindCode, hdrReleased, hdrRepeated, payloadHdr, Config.hdrLo, BitVec.getLsbD_append,
    BitVec.getLsbD_ofBool, BitVec.getLsbD_extractLsb']
  interval_cases i <;> simp

theorem ev0Word_joykbEvent (p : Word) :
    ev0Word (joykbEvent p) = (0#8 ++ p.extractLsb' 16 8 ++ 0#14 ++ 3#2 : BitVec 32) := by
  apply BitVec.eq_of_getLsbD_eq
  intro i hi
  simp only [ev0Word, joykbEvent, kindCode, payloadHdr, Config.hdrLo, BitVec.getLsbD_append,
    BitVec.getLsbD_ofBool, BitVec.getLsbD_extractLsb']
  interval_cases i <;> simp

/-- The widened axes are the 6-bit fields with two zero bits below (41_frame_validate.md R174). -/
theorem widen6_eq_append (v : BitVec 6) : widen6 v = (v ++ 0#2 : BitVec 8) := by
  apply BitVec.eq_of_getLsbD_eq
  intro i hi
  simp only [widen6, BitVec.getLsbD_append, BitVec.getLsbD_shiftLeft, BitVec.getLsbD_setWidth]
  interval_cases i <;> simp

theorem ev1Word_joykbEvent (p : Word) :
    ev1Word (joykbEvent p) = (0#16 ++ p.extractLsb' 4 6 ++ 0#2 ++ p.extractLsb' 10 6 ++ 0#2 : BitVec 32) := by
  simp only [ev1Word, joykbEvent, widen6_eq_append, payloadY6, payloadX6, Config.x6Lo, Config.y6Lo]
  apply BitVec.eq_of_getLsbD_eq
  intro i hi
  simp only [BitVec.getLsbD_append]
  interval_cases i <;> simp

theorem ev0Word_joyEvent (b : BitVec 16) :
    ev0Word (joyEvent b) =
      (0#20 ++ BitVec.ofBool (b.getLsbD 15) ++ BitVec.ofBool (b.getLsbD 7) ++ 0#8 ++ 2#2 : BitVec 32) := by
  apply BitVec.eq_of_getLsbD_eq
  intro i hi
  simp only [ev0Word, joyEvent, kindCode, BitVec.getLsbD_append, BitVec.getLsbD_ofBool]
  interval_cases i <;> simp

theorem ev1Word_joyEvent (b : BitVec 16) :
    ev1Word (joyEvent b) = (0#17 ++ b.extractLsb' 8 7 ++ 0#1 ++ b.extractLsb' 0 7 : BitVec 32) := by
  apply BitVec.eq_of_getLsbD_eq
  intro i hi
  simp only [ev1Word, joyEvent, BitVec.getLsbD_append, BitVec.getLsbD_setWidth, BitVec.getLsbD_extractLsb']
  interval_cases i <;> simp

theorem evRaw_joyEvent (b : BitVec 16) : (joyEvent b).raw = (0#16 ++ b : BitVec 32) :=
  BitVec.setWidth_eq_append (x := b) (show 16 ≤ 32 by decide)

/-! ### What each mode selects -/

/-- `i` is a DECODE of one of the three modes, with bit D = `d`, whose SELECT yields `sel` in `s` (R157 to R159). -/
def Selects (i : Instr) (d : Bool) (s : State) (sel : Selected) : Prop :=
  i = .decode d ∧ sel = discriminate s s.work ∨ i = .decodeK d ∧ sel = selectKbd s s.work ∨
  i = .decodeJ d ∧ sel = selectJoy s .notTried s.work

/-- A keyboard frame that the keyboard decoder accepts, by DECODE.K or DECODE (R155, R158). -/
theorem selects_kbd {s : State} {p : Word} {n : Nat} {i : Instr} {d : Bool}
    (hi : i = .decodeK d ∨ i = .decode d ∧ s.ctrl.kbdEn = true) (h : (kbd s.timing (frame s) s.work).1 = .ok p n) :
    Selects i d s ⟨.ok p n, .notTried, validateKbd p, (kbd s.timing (frame s) s.work).2⟩ := by
  rcases hi with rfl | ⟨rfl, hk⟩
  · exact .inr (.inl ⟨rfl, (selectKbd_ok s _ p n h).symm⟩)
  · exact .inl ⟨rfl, by rw [discriminate_kbd s _ p n hk h, selectKbd_ok s _ p n h]⟩

/-- DISCRIMINATE goes on to the joystick decoder where the keyboard decoder is disabled or rejects (R155). -/
theorem discriminate_missed {s : State} {kr : Attempt Word}
    (hkr : kr = if s.ctrl.kbdEn then (kbd s.timing (frame s) s.work).1 else .notTried) (hno : ∀ p n, kr ≠ .ok p n) :
    ∃ w, discriminate s s.work = discriminateJoy s kr w := by
  cases hk : s.ctrl.kbdEn with
  | false =>
    rw [hk] at hkr
    exact ⟨s.work, by rw [discriminate_off s _ hk, hkr]; rfl⟩
  | true =>
    rw [hk, if_pos rfl] at hkr
    rcases kbd_cases s.timing (frame s) s.work with ⟨w', h⟩ | ⟨r, m, w', h⟩ <;> rw [h] at hkr
    · exact absurd hkr (hno _ _)
    · exact ⟨_, by rw [discriminate_reject s _ r m hk (congrArg Prod.fst h), hkr]⟩

/-- SELECT_J of a frame that the joystick decoder does not accept, from any working registers (R159). -/
theorem selectJoy_missed {s : State} (kr : Attempt Word) (w : Work)
    (hno : ∀ b n, (joy s.timing s.ctrl (frame s) s.work).1 ≠ .ok b n) :
    ∃ w', selectJoy s kr w = ⟨kr, (joy s.timing s.ctrl (frame s) s.work).1, .malformed, w'⟩ := by
  rw [joy_work s.timing s.ctrl (frame s) s.work w] at hno ⊢
  exact ⟨_, selectJoy_reject s kr w hno⟩

/-- A joystick frame, by DECODE.J, or by DECODE after no keyboard frame (R155, R159). -/
theorem selects_joy {s : State} {b : BitVec 16} {n : Nat} {d : Bool} {i : Instr} {kr : Attempt Word}
    (h : (joy s.timing s.ctrl (frame s) s.work).1 = .ok b n) (hno : ∀ p m, kr ≠ .ok p m)
    (hi : i = .decodeJ d ∧ kr = .notTried ∨
      i = .decode d ∧ s.ctrl.joyEn = true ∧
        kr = (if s.ctrl.kbdEn then (kbd s.timing (frame s) s.work).1 else .notTried)) :
    ∃ w, Selects i d s ⟨kr, .ok b n, .event (joyEvent b), w⟩ := by
  rcases hi with ⟨rfl, rfl⟩ | ⟨rfl, hj, hkr⟩
  · exact ⟨_, .inr (.inr ⟨rfl, (selectJoy_ok s _ _ b n h).symm⟩)⟩
  · obtain ⟨w, e⟩ := discriminate_missed hkr hno
    rw [joy_work s.timing s.ctrl (frame s) s.work w] at h
    refine ⟨(joy s.timing s.ctrl (frame s) w).2, .inl ⟨rfl, ?_⟩⟩
    rw [e, discriminateJoy, if_pos hj, selectJoy_ok s kr w b n h]

/-- A frame that no tried decoder accepts (R155, R158, R159). -/
theorem selects_malformed {s : State} {d : Bool} {i : Instr} {kr : Attempt Word} {jr : Attempt (BitVec 16)}
    (hk : ∀ p n, kr ≠ .ok p n) (hj : ∀ b n, jr ≠ .ok b n)
    (hi : i = .decodeK d ∧ kr = (kbd s.timing (frame s) s.work).1 ∧ jr = .notTried ∨
      i = .decodeJ d ∧ kr = .notTried ∧ jr = (joy s.timing s.ctrl (frame s) s.work).1 ∨
      i = .decode d ∧ (kr = if s.ctrl.kbdEn then (kbd s.timing (frame s) s.work).1 else .notTried) ∧
        (jr = if s.ctrl.joyEn then (joy s.timing s.ctrl (frame s) s.work).1 else .notTried)) :
    ∃ w, Selects i d s ⟨kr, jr, .malformed, w⟩ := by
  rcases hi with ⟨rfl, rfl, rfl⟩ | ⟨rfl, rfl, rfl⟩ | ⟨rfl, hkr, hjr⟩
  · exact ⟨_, .inr (.inl ⟨rfl, (selectKbd_reject s _ hk).symm⟩)⟩
  · obtain ⟨w, e⟩ := selectJoy_missed .notTried s.work hj
    exact ⟨w, .inr (.inr ⟨rfl, e.symm⟩)⟩
  · obtain ⟨w, e⟩ := discriminate_missed hkr hk
    cases hen : s.ctrl.joyEn with
    | false =>
      refine ⟨w, .inl ⟨rfl, ?_⟩⟩
      rw [e, discriminateJoy, hjr, hen]
      rfl
    | true =>
      rw [hen, if_pos rfl] at hjr
      subst hjr
      obtain ⟨w', e'⟩ := selectJoy_missed kr w hj
      exact ⟨w', .inl ⟨rfl, by rw [e, discriminateJoy, if_pos hen, e']⟩⟩

/-! ### The common body -/

/-- DECODE_BODY without a frame (R157). -/
theorem decodeBody_noFrame (d : Bool) (sel : Selected) {s : State} (h : s.status.frameReady = false) :
    decodeBody d sel s = raise .noFrame 1#4 s := by
  rw [decodeBody, h]
  rfl

/-- A DECODE with a frame consumes it and delivers what its SELECT found (R157). -/
theorem exec_of_selects {i : Instr} {d : Bool} {s : State} {sel : Selected} (hr : s.status.frameReady = true)
    (h : Selects i d s sel) : exec i s = .next (completeCommand (deliver d sel.res (consumeFrame sel s))) := by
  rw [exec_eq]
  rcases h with ⟨rfl, rfl⟩ | ⟨rfl, rfl⟩ | ⟨rfl, rfl⟩ <;> rw [commandBody, decodeBody, if_pos hr]

/-- The end of a DECODE that found no frame (R157). -/
theorem exec_malformed {i : Instr} {d : Bool} {s : State} {kr : Attempt Word} {jr : Attempt (BitVec 16)} {w : Work}
    (hr : s.status.frameReady = true) (h : Selects i d s ⟨kr, jr, .malformed, w⟩) :
    exec i s = .next
      { s with
        diag := diagWord kr jr, ev0 := 0#32, ev1 := 0#32, evRaw := 0#32, work := w
        status := { statusDoneErr s.status with frameReady := false }
        err := { code := 1#4, op := 1#4, addr := 0#12 }
        trace := s.trace ++ [.rearm], pins := { s.pins with rearm := false }
        job := none, hold := 0 } :=
  exec_of_selects hr h

/-- The end of a DECODE of a payload with a wrong checksum (R157). -/
theorem exec_chkFail {i : Instr} {d : Bool} {s : State} {kr : Attempt Word} {jr : Attempt (BitVec 16)} {p : Word}
    {w : Work} (hr : s.status.frameReady = true) (h : Selects i d s ⟨kr, jr, .chkFail p, w⟩) :
    exec i s = .next
      { s with
        diag := diagWord kr jr, ev0 := 0#32, ev1 := 0#32, evRaw := p, work := w
        status := { statusDoneErr s.status with frameReady := false }
        err := { code := 2#4, op := 1#4, addr := 0#12 }
        trace := s.trace ++ [.rearm], pins := { s.pins with rearm := false }
        job := none, hold := 0 } :=
  exec_of_selects hr h

/-- The state after DECODE_BODY has written an event, before any dispatch (R157). -/
def eventWritten (sel : Selected) (e : Event) (s : State) : State :=
  markEvent (writeEvent (ev0Word e) (ev1Word e) e.raw (consumeFrame sel s))

/-- A DECODE of an event that is not dispatched, D being 0 or the event no KEY event, ends after the event (R157). -/
theorem exec_undispatched {i : Instr} {d : Bool} {s : State} {sel : Selected} {e : Event} (hr : s.status.frameReady = true)
    (h : Selects i d s sel) (hres : sel.res = .event e) (hd : (d && e.kind == .key) = false) :
    exec i s = .next (completeCommand (eventWritten sel e s)) := by
  rw [exec_of_selects hr h, hres, deliver, hd]
  rfl

/-- A DECODE with D = 1 of a KEY event dispatches it (R157). -/
theorem exec_dispatched {i : Instr} {s : State} {sel : Selected} {e : Event} (hr : s.status.frameReady = true)
    (h : Selects i true s sel) (hres : sel.res = .event e) (hkey : e.kind = .key) :
    exec i s = .next (completeCommand (dispatchBody 1#4 (eventWritten sel e s))) := by
  rw [exec_of_selects hr h, hres, deliver, hkey]
  rfl

/-- The end of a DECODE of an event that is not dispatched, field by field. -/
theorem exec_event {i : Instr} {d : Bool} {s : State} {kr : Attempt Word} {jr : Attempt (BitVec 16)} {e : Event}
    {w : Work} (hr : s.status.frameReady = true) (h : Selects i d s ⟨kr, jr, .event e, w⟩)
    (hd : (d && e.kind == .key) = false) :
    exec i s = .next
      { s with
        diag := diagWord kr jr, ev0 := ev0Word e, ev1 := ev1Word e, evRaw := e.raw, work := w
        status := { statusDone s.status with frameReady := false, evNew := true }
        trace := s.trace ++ [.rearm], pins := { s.pins with rearm := false }
        job := none, hold := 0 } := by
  rw [exec_undispatched hr h rfl hd]
  rfl

theorem validateKbd_key {p : Word} (hv : payloadValid p = true) (hkey : p.getLsbD 17 = true) :
    validateKbd p = .event (keyEvent p) := by
  rw [validateKbd, if_pos hv, hdrIsKey_payloadHdr, if_pos hkey]

theorem validateKbd_joykb {p : Word} (hv : payloadValid p = true) (hkey : p.getLsbD 17 = false) :
    validateKbd p = .event (joykbEvent p) := by
  rw [validateKbd, if_pos hv, hdrIsKey_payloadHdr, hkey]
  rfl

theorem validateKbd_invalid {p : Word} (hv : payloadValid p = false) : validateKbd p = .chkFail p := by
  rw [validateKbd, hv]
  rfl

/-! ### The obligations -/

/-- Settles O21: REARM is `dropFrame` and the wrapper's end. -/
theorem rearmDropsTheFrame : Obligations.RearmDropsTheFrame := fun s => exec_eq .rearm s

/-- Settles O41: without a frame the body of each mode is the error alone. -/
theorem decodeWithoutFrameIsNoFrame : Obligations.DecodeWithoutFrameIsNoFrame := by
  intro s d hr i hi
  have hbody : commandBody i s = raise .noFrame 1#4 s := by
    simp only [List.mem_cons, List.not_mem_nil, or_false] at hi
    rcases hi with rfl | rfl | rfl <;> exact decodeBody_noFrame d _ hr
  rw [exec_eq, hbody]
  rfl

/-- Settles O42: SELECT yields the KEY event, and D = 0 does not dispatch it. -/
theorem keyFrameGivesKeyEvent : Obligations.KeyFrameGivesKeyEvent := by
  intro s p n i hr hi hok hv hkey
  have hsel := selects_kbd hi hok
  rw [validateKbd_key hv hkey] at hsel
  refine ⟨(kbd s.timing (frame s) s.work).2, ?_⟩
  rw [exec_event hr hsel rfl, diagWord_kbd, ev0Word_keyEvent]
  rfl

/-- Settles O43: SELECT yields the JOYKB event, which no D dispatches. -/
theorem joykbFrameGivesJoykbEvent : Obligations.JoykbFrameGivesJoykbEvent := by
  intro s p n d i hr hi hok hv hkey
  have hsel := selects_kbd hi hok
  rw [validateKbd_joykb hv hkey] at hsel
  refine ⟨(kbd s.timing (frame s) s.work).2, joykbSentinel_range, ?_⟩
  rw [exec_event hr hsel (Bool.and_false d), diagWord_kbd, ev0Word_joykbEvent, ev1Word_joykbEvent]
  rfl

/-- Settles O44: SELECT yields the JOY event, which no D dispatches. -/
theorem joystickFrameGivesJoyEvent : Obligations.JoystickFrameGivesJoyEvent := by
  intro s b n d i kr kres kidx hr hok hmiss hi
  obtain ⟨w, hsel⟩ := selects_joy hok (missed_not_ok hmiss) hi
  obtain ⟨hcode, hidx⟩ := missed_diag hmiss
  refine ⟨w, ?_⟩
  rw [exec_event hr hsel (Bool.and_false d), diagWord, hcode, hidx, ev0Word_joyEvent, ev1Word_joyEvent, evRaw_joyEvent]
  rfl

/-- Settles O45: SELECT yields no frame in each mode. -/
theorem rejectedFrameIsMalformed : Obligations.RejectedFrameIsMalformed := by
  intro s d i kr jr kres jres kidx jidx hr hi hkr hjr
  obtain ⟨w, hsel⟩ := selects_malformed (missed_not_ok hkr) (missed_not_ok hjr) hi
  obtain ⟨hkcode, hkidx⟩ := missed_diag hkr
  obtain ⟨hjcode, hjidx⟩ := missed_diag hjr
  refine ⟨w, ?_⟩
  rw [exec_malformed hr hsel, diagWord, hkcode, hkidx, hjcode, hjidx]

/-- Settles O46: SELECT yields the checksum failure, and the joystick decoder is not tried. -/
theorem checksumFailureIsFinal : Obligations.ChecksumFailureIsFinal := by
  intro s p n d i hr hi hok hv
  have hsel := selects_kbd hi hok
  rw [validateKbd_invalid hv] at hsel
  exact ⟨(kbd s.timing (frame s) s.work).2, by rw [exec_chkFail hr hsel, diagWord_kbd]⟩

/-- Settles O49: no body changes the configuration, and the wrapper's end writes STATUS and the engine's job. -/
theorem commandsKeepConfigurationAndMemory : Obligations.CommandsKeepConfigurationAndMemory := by
  intro i s t h
  obtain rfl := exec_next h
  have hc := commandBody_sameConfig i s
  exact ⟨hc.ctrl, hc.irqEn, hc.pbCount, hc.timing, fun a => congrArg (·.readByte a) hc.mem, hc.mem, hc.params, hc.program,
    hc.reads, hc.draws⟩

end Sys2Proof.Machine
end

section
/-! SUPPORT. A DECODE with its dispatch against a DECODE and then a DISPATCH (40_frame_decode.md R157, 44_control.md R245). -/

namespace Sys2Proof.Machine

/-! ### The cases of a dispatch -/

theorem firstHit_unique {s : State} {c : Byte} {sh : Bool} {i j : Nat} (hi : FirstHit s c sh i) (hj : FirstHit s c sh j) :
    i = j := by
  have h := ((lookupCore_some c sh s i _).2 ⟨hi, rfl⟩).symm.trans ((lookupCore_some c sh s j _).2 ⟨hj, rfl⟩)
  exact congrArg Prod.fst (Option.some.inj h)

theorem not_firstHit_of_noHit {s : State} {c : Byte} {sh : Bool} {i : Nat} (hno : NoHit s c sh) :
    ¬ FirstHit s c sh i :=
  fun hi => hno i hi.1 hi.2.1

theorem dispatchBody_other (op : BitVec 4) {s : State} (hk : s.ev0.extractLsb' 0 2 ≠ 1#2) : dispatchBody op s = s := by
  rcases dispatchBody_cases op s with ⟨-, e⟩ | ⟨hk', -⟩ | ⟨hk', -⟩
  exacts [e, absurd hk' hk, absurd hk' hk]

theorem dispatchBody_miss (op : BitVec 4) {s : State} (hk : s.ev0.extractLsb' 0 2 = 1#2)
    (hno : NoHit s (s.ev1.extractLsb' 0 8) (ShiftOf s)) :
    dispatchBody op s = raise .unknownInputKey op (writeLookupRes (MissWord (ShiftOf s)) s) := by
  rcases dispatchBody_cases op s with ⟨hk', -⟩ | ⟨-, -, e⟩ | ⟨-, i, hi, -⟩
  exacts [absurd hk hk', e, absurd hi (not_firstHit_of_noHit hno)]

theorem dispatchBody_hit (op : BitVec 4) {s : State} {i : Nat} (hk : s.ev0.extractLsb' 0 2 = 1#2)
    (hi : FirstHit s (s.ev1.extractLsb' 0 8) (ShiftOf s) i) :
    dispatchBody op s =
      applyBody op ((xlatEntry s.mem i).extractLsb' 8 8) (!s.ev0.getLsbD 8) ((xlatEntry s.mem i).getLsbD 18)
        (writeLookupRes (lookupWord (some (i, xlatEntry s.mem i)) (ShiftOf s)) s) := by
  rcases dispatchBody_cases op s with ⟨hk', -⟩ | ⟨-, hno, -⟩ | ⟨-, j, hj, e⟩
  · exact absurd hk hk'
  · exact absurd hi (not_firstHit_of_noHit hno)
  · rwa [firstHit_unique hi hj]

/-- A dispatch finds no KEY event, a miss, or a hit, whatever the OP of its command (R193). -/
theorem dispatch_outcomes (s : State) :
    s.ev0.extractLsb' 0 2 ≠ 1#2 ∨
    s.ev0.extractLsb' 0 2 = 1#2 ∧ NoHit s (s.ev1.extractLsb' 0 8) (ShiftOf s) ∨
    s.ev0.extractLsb' 0 2 = 1#2 ∧ ∃ i, FirstHit s (s.ev1.extractLsb' 0 8) (ShiftOf s) i := by
  rcases dispatchBody_cases 2#4 s with ⟨hk, -⟩ | ⟨hk, hno, -⟩ | ⟨hk, i, hi, -⟩
  exacts [.inl hk, .inr (.inl ⟨hk, hno⟩), .inr (.inr ⟨hk, i, hi⟩)]

/-! ### The wrapper's end before a dispatch does not show -/

theorem invCheck_complete (op : BitVec 4) (s : State) :
    invCheck op (completeCommand s) = completeCommand (invCheck op s) := by
  rcases invCheck_cases op s with ⟨h, e⟩ | ⟨h, e⟩ <;> rw [e]
  · exact if_pos h
  · exact if_neg h

theorem applyReset_complete (p : Bool) (s : State) : applyReset p (completeCommand s) = completeCommand (applyReset p s) := by
  cases p
  · rfl
  · show initState (completeCommand s) = completeCommand (initState s)
    rw [initState_eq, initState_eq]
    rfl

/-- APPLY_BODY does the same after the wrapper's end as before it. -/
theorem applyBody_complete (op : BitVec 4) (c : Byte) (p a : Bool) (s : State) :
    applyBody op c p a (completeCommand s) = completeCommand (applyBody op c p a s) := by
  have hcaps : applyCaps p (completeCommand s) = completeCommand (applyCaps p s) := by cases p <;> rfl
  have hrestore : applyRestore p (completeCommand s) = completeCommand (applyRestore p s) := by cases p <;> rfl
  have hkey (k : Coord) : applyKey k p a (completeCommand s) = completeCommand (applyKey k p a s) := by cases a <;> rfl
  have hleft : applyLeftShift p (completeCommand s) = completeCommand (applyLeftShift p s) := rfl
  have hright : applyRightShift p (completeCommand s) = completeCommand (applyRightShift p s) := rfl
  have hraise : raise .reservedCode op (completeCommand s) = completeCommand (raise .reservedCode op s) := rfl
  unfold applyBody
  simp only [completeCommand_params, hcaps, hrestore, applyReset_complete, hkey, hleft, hright, hraise, invCheck_complete,
    apply_ite completeCommand]

/-- DISPATCH_BODY does the same after the wrapper's end as before it. -/
theorem dispatchBody_complete (op : BitVec 4) (s : State) :
    dispatchBody op (completeCommand s) = completeCommand (dispatchBody op s) := by
  rcases dispatch_outcomes s with hk | ⟨hk, hno⟩ | ⟨hk, i, hi⟩
  · rw [dispatchBody_other op hk, dispatchBody_other op (s := completeCommand s) hk]
  · rw [dispatchBody_miss op hk hno, dispatchBody_miss op (s := completeCommand s) hk hno]
    rfl
  · rw [dispatchBody_hit op hk hi, dispatchBody_hit op (s := completeCommand s) hk hi]
    exact applyBody_complete op _ _ _ (writeLookupRes (lookupWord (some (i, xlatEntry s.mem i)) (ShiftOf s)) s)

/-! ### What the OP of the running command changes -/

/-- `f op` is what an operation gives from `s` inside a command with that OP: one state whatever the OP, with ERR kept, or one
error, in which the OP stands in ERR.OP alone (60_exceptions.md R253). -/
def OpOnlyInError (s : State) (f : BitVec 4 → State) : Prop :=
  (∃ t, t.err = s.err ∧ ∀ op, f op = t) ∨ ∃ n t, ∀ op, f op = raise n op t

theorem invCheck_opOnlyInError {s t : State} (h : t.err = s.err) : OpOnlyInError s fun op => invCheck op t := by
  by_cases hl : LeftShiftHolds t
  · exact .inl ⟨t, h, fun op => if_pos hl⟩
  · exact .inr ⟨_, _, fun op => if_neg hl⟩

theorem applyReset_err (p : Bool) (s : State) : (applyReset p s).err = s.err := by
  cases p
  · rfl
  · show (initState s).err = s.err
    rw [initState_eq]

theorem applyBody_opOnlyInError (c : Byte) (p a : Bool) (s : State) :
    OpOnlyInError s fun op => applyBody op c p a s := by
  unfold applyBody
  split_ifs
  · exact invCheck_opOnlyInError (by cases p <;> rfl)
  · exact invCheck_opOnlyInError (by cases p <;> rfl)
  · exact invCheck_opOnlyInError (applyReset_err p s)
  · exact .inr ⟨.reservedCode, s, fun _ => rfl⟩
  · exact invCheck_opOnlyInError rfl
  · exact invCheck_opOnlyInError rfl
  · exact invCheck_opOnlyInError (by cases a <;> rfl)

theorem dispatchBody_opOnlyInError (s : State) : OpOnlyInError s fun op => dispatchBody op s := by
  rcases dispatch_outcomes s with hk | ⟨hk, hno⟩ | ⟨hk, i, hi⟩
  · exact .inl ⟨s, rfl, fun op => dispatchBody_other op hk⟩
  · exact .inr ⟨_, _, fun op => dispatchBody_miss op hk hno⟩
  · simp only [dispatchBody_hit _ hk hi]
    exact applyBody_opOnlyInError _ _ _ (writeLookupRes (lookupWord (some (i, xlatEntry s.mem i)) (ShiftOf s)) s)

/-- The dispatch of a KEY event fails where no entry applies, or where the applying one has an unassigned OUT (R193, R221). -/
theorem dispatchBody_fails {s : State} (hk : s.ev0.extractLsb' 0 2 = 1#2)
    (h : NoHit s (s.ev1.extractLsb' 0 8) (ShiftOf s) ∨
      ∃ i, FirstHit s (s.ev1.extractLsb' 0 8) (ShiftOf s) i ∧
        ¬ AssignedCode s.params ((xlatEntry s.mem i).extractLsb' 8 8)) :
    ∃ n t, ∀ op, dispatchBody op s = raise n op t := by
  rcases h with hno | ⟨i, hi, hout⟩
  · exact ⟨_, _, fun op => dispatchBody_miss op hk hno⟩
  · exact ⟨_, _, fun op => (dispatchBody_hit op hk hi).trans (applyBody_unassigned op _ _ _ _ hout)⟩

/-- DISPATCH as a command of its own, after a command that ended, does what it does inside that command with OP 1, but for
the OP of an error (R157, R245). -/
theorem exec_dispatch_complete (s : State) (hkey : s.ev0.extractLsb' 0 2 = 1#2) :
    ∃ (u : State) (e : ErrReg), exec .dispatch (completeCommand s) = .next u ∧
      completeCommand (dispatchBody 1#4 s) = { u with err := e } ∧
      (u.err = s.err ∧ e = s.err ∨ u.err.op = 2#4 ∧ e = { u.err with op := 1#4 }) ∧
      (NoHit s (s.ev1.extractLsb' 0 8) (ShiftOf s) ∨
        (∃ k, FirstHit s (s.ev1.extractLsb' 0 8) (ShiftOf s) k ∧
          ¬ AssignedCode s.params ((xlatEntry s.mem k).extractLsb' 8 8)) →
        u.err.op = 2#4 ∧ e = { u.err with op := 1#4 }) := by
  have hexec : exec .dispatch (completeCommand s) = .next (completeCommand (dispatchBody 2#4 s)) := by
    rw [exec_eq, commandBody, dispatchBody_complete]
    rfl
  rcases dispatchBody_opOnlyInError s with
    ⟨t, ht, (e : ∀ op, dispatchBody op s = t)⟩ | ⟨n, t, (e : ∀ op, dispatchBody op s = raise n op t)⟩
  · refine ⟨_, s.err, hexec, ?_, .inl ⟨?_, rfl⟩, fun hfail => ?_⟩
    · rw [e 1#4, e 2#4, ← ht]
      rfl
    · rw [e 2#4, completeCommand_err, ht]
    · obtain ⟨n, t', hraise⟩ := dispatchBody_fails hkey hfail
      have hop : raise n 1#4 t' = raise n 2#4 t' := by rw [← hraise, ← hraise, e 1#4, e 2#4]
      exact absurd (congrArg (·.err.op) hop) (by simp)
  · have herr : (completeCommand (dispatchBody 2#4 s)).err.op = 2#4 ∧
        (completeCommand (dispatchBody 1#4 s)).err = { (completeCommand (dispatchBody 2#4 s)).err with op := 1#4 } := by
      rw [e 1#4, e 2#4]
      exact ⟨rfl, rfl⟩
    refine ⟨_, _, hexec, ?_, .inr herr, fun _ => herr⟩
    rw [e 1#4, e 2#4]
    rfl

/-- The event registers of a KEY event say that it is one (10_state.md R33). -/
theorem kind_eventWritten_key (sel : Selected) (p : Word) (s : State) :
    (eventWritten sel (keyEvent p) s).ev0.extractLsb' 0 2 = 1#2 := by
  show (ev0Word (keyEvent p)).extractLsb' 0 2 = 1#2
  rw [ev0Word_keyEvent]
  exact BitVec.extractLsb'_append_eq_right

/-- Settles O47: both ways write the same event; the dispatch after it differs in the wrapper's end between, which does not
show, and in the OP of its command, which shows in ERR.OP alone. -/
theorem combinedDecodeIsDecodeThenDispatch : Obligations.CombinedDecodeIsDecodeThenDispatch := by
  intro s p n i j hr hij hok hv hkey
  have hi : i = .decodeK false ∨ i = .decode false ∧ s.ctrl.kbdEn = true :=
    hij.imp (fun h => h.1) fun h => ⟨h.1, h.2.2⟩
  have hj : j = .decodeK true ∨ j = .decode true ∧ s.ctrl.kbdEn = true := hij.imp (fun h => h.2) fun h => h.2
  have hres := validateKbd_key hv hkey
  obtain ⟨u, e, hdispatch, hcombined, herr⟩ := exec_dispatch_complete _ (kind_eventWritten_key _ p s)
  refine ⟨_, u, e, exec_undispatched hr (selects_kbd hi hok) hres rfl, hdispatch, ?_, herr⟩
  rw [exec_dispatched hr (selects_kbd hj hok) hres rfl, hcombined]

end Sys2Proof.Machine
end

section
/-! SUPPORT. The checksum as a count of payload bits, and what a single flipped bit does to it (41_frame_validate.md R170). -/

namespace Sys2Proof.Machine

/-! ### Counts of bits -/

theorem countP_eq_sum_toNat {α : Type} (f : α → Bool) (l : List α) :
    l.countP f = (l.map fun a => (f a).toNat).sum := by
  induction l with
  | nil => rfl
  | cons a l ih =>
    rw [List.countP_cons, List.map_cons, List.sum_cons, ih, Nat.add_comm]
    cases f a <;> rfl

/-- A change of `f` at one element alone changes its count. -/
theorem countP_ne_of_flip {l : List Nat} (hl : l.Nodup) {i : Nat} (hi : i ∈ l) {f g : Nat → Bool}
    (hflip : g i = !f i) (hkeep : ∀ j, j ≠ i → g j = f j) : l.countP g ≠ l.countP f := by
  have hrest : (l.erase i).countP g = (l.erase i).countP f :=
    List.countP_congr fun j hj => by rw [hkeep j (hl.mem_erase_iff.1 hj).1]
  have hsplit := List.perm_cons_erase hi
  rw [hsplit.countP_eq, hsplit.countP_eq, List.countP_cons, List.countP_cons, hrest, hflip]
  cases f i <;> simp

/-! ### The two sides of the checksum -/

/-- The mask of R170 keeps the 24 bits that are no checksum. -/
theorem expectedChk_eq (p : Word) : expectedChk p = 2 + (List.range 24).countP p.getLsbD := by
  have hmask : (List.range 32).filter (0x00FFFFFF#32).getLsbD = List.range 24 := by decide
  rw [expectedChk, popcount, ← hmask, List.countP_filter]
  simp only [BitVec.getLsbD_and]

theorem payloadValid_iff (p : Word) : payloadValid p = true ↔ expectedChk p = (payloadChk p).toNat :=
  beq_iff_eq

theorem getLsbD_payloadChk (p : Word) (j : Nat) : (payloadChk p).getLsbD j = (decide (j < 4) && p.getLsbD (24 + j)) :=
  BitVec.getLsbD_extractLsb' ..

/-! ### One flipped bit -/

theorem getLsbD_flip (p : Word) {i : Nat} (hi : i < 32) (j : Nat) :
    (p ^^^ (1#32 <<< i)).getLsbD j = (p.getLsbD j ^^ decide (i = j)) := by
  rw [BitVec.getLsbD_xor, ← BitVec.twoPow_eq, BitVec.getLsbD_twoPow, decide_eq_true hi, Bool.true_and]

theorem getLsbD_flip_self (p : Word) {i : Nat} (hi : i < 32) : (p ^^^ (1#32 <<< i)).getLsbD i = !p.getLsbD i := by
  rw [getLsbD_flip p hi, decide_eq_true rfl, Bool.xor_true]

theorem getLsbD_flip_ne (p : Word) {i j : Nat} (hi : i < 32) (hj : j ≠ i) :
    (p ^^^ (1#32 <<< i)).getLsbD j = p.getLsbD j := by
  rw [getLsbD_flip p hi, decide_eq_false hj.symm, Bool.xor_false]

theorem expectedChk_flip_data (p : Word) {i : Nat} (hi : i < 24) : expectedChk (p ^^^ (1#32 <<< i)) ≠ expectedChk p := by
  have hi32 : i < 32 := by omega
  have hcount := countP_ne_of_flip List.nodup_range (List.mem_range.2 hi) (getLsbD_flip_self p hi32)
    fun _ hj => getLsbD_flip_ne p hi32 hj
  rw [expectedChk_eq, expectedChk_eq]
  omega

theorem payloadChk_flip_data (p : Word) {i : Nat} (hi : i < 24) : payloadChk (p ^^^ (1#32 <<< i)) = payloadChk p := by
  refine BitVec.eq_of_getLsbD_eq fun j _ => ?_
  rw [getLsbD_payloadChk, getLsbD_payloadChk, getLsbD_flip_ne p (by omega) (by omega)]

theorem expectedChk_flip_chk (p : Word) {i : Nat} (hlo : 24 ≤ i) (hi : i < 28) :
    expectedChk (p ^^^ (1#32 <<< i)) = expectedChk p := by
  rw [expectedChk_eq, expectedChk_eq]
  congr 1
  refine List.countP_congr fun j hj => ?_
  have hj24 : j < 24 := List.mem_range.1 hj
  rw [getLsbD_flip_ne p (by omega) (by omega)]

theorem payloadChk_flip_chk (p : Word) {i : Nat} (hlo : 24 ≤ i) (hi : i < 28) :
    payloadChk (p ^^^ (1#32 <<< i)) ≠ payloadChk p := by
  intro h
  have hbit := congrArg (·.getLsbD (i - 24)) h
  have hin : i - 24 < 4 := by omega
  simp only [getLsbD_payloadChk, Nat.add_sub_cancel' hlo, getLsbD_flip_self p (show i < 32 by omega), decide_eq_true hin,
    Bool.true_and] at hbit
  exact Bool.not_ne_self _ hbit

/-! ### The obligations -/

/-- Settles O39: both sides of the checksum, the count written as a sum. -/
theorem checksumIsPopcountPlusTwo : Obligations.ChecksumIsPopcountPlusTwo := by
  intro p
  rw [payloadValid_iff, expectedChk_eq, countP_eq_sum_toNat]
  rfl

/-- Settles O40: a flipped bit of p[23:0] changes the expected checksum alone, one of p[27:24] the received one alone. -/
theorem singleBitFlipInvalidates : Obligations.SingleBitFlipInvalidates := by
  intro p i hi hv
  have hp := (payloadValid_iff p).1 hv
  refine Bool.eq_false_iff.2 fun hflipped => ?_
  have hq := (payloadValid_iff _).1 hflipped
  by_cases hdata : i < 24
  · rw [payloadChk_flip_data p hdata, ← hp] at hq
    exact expectedChk_flip_data p hdata hq
  · have hlo : 24 ≤ i := by omega
    rw [expectedChk_flip_chk p hlo hi, hp] at hq
    exact payloadChk_flip_chk p hlo hi (BitVec.eq_of_toNat_eq hq.symm)

end Sys2Proof.Machine
end

section
/-! SUPPORT. LOOKUP and DISPATCH as whole commands (42_dispatch.md R190 to R196). -/

namespace Sys2Proof.Machine

/-! ### The OP of the running command -/

/-- Where the left-shift invariant holds, INV_CHECK() raises nothing, so the command's OP does not show (43_matrix.md R228). -/
theorem invCheck_op_irrelevant {s : State} (h : LeftShiftHolds s) (op op' : BitVec 4) : invCheck op s = invCheck op' s := by
  rw [invCheck_of_leftShift op s h, invCheck_of_leftShift op' s h]

/-- APPLY_BODY of an assigned code raises nothing where the left-shift invariant holds, so it is the same in every command
(43_matrix.md R222, R225, R228). -/
theorem applyBody_op_irrelevant {s : State} {c : Byte} (hp : ParamsLegal s) (hl : LeftShiftHolds s)
    (hc : AssignedCode s.params c) (op op' : BitVec 4) (p a : Bool) : applyBody op c p a s = applyBody op' c p a s := by
  rcases hc with hlt | rfl | rfl | rfl
  · rw [← code_of_coord c (by omega), applyBody_coord op _ p a s hp, applyBody_coord op' _ p a s hp]
    split_ifs with hleft hright
    · exact invCheck_op_irrelevant (leftShift_applyLeftShift p s) op op'
    · exact invCheck_op_irrelevant (leftShift_applyRightShift p s hp hl) op op'
    · exact invCheck_op_irrelevant (leftShift_applyKey _ p a s hp hl hleft) op op'
  · rw [applyBody_caps, applyBody_caps]
    exact invCheck_op_irrelevant (leftShift_applyCaps p s hl) op op'
  · rw [applyBody_restore op p a s hp, applyBody_restore op' p a s hp]
    exact invCheck_op_irrelevant (leftShift_applyRestore p s hl) op op'
  · rw [applyBody_reset op p a s hp, applyBody_reset op' p a s hp]
    exact invCheck_op_irrelevant (leftShift_applyReset p s hl) op op'

/-- APPLY_BODY of an ordinary coordinate without auto-shift is one crosspoint write (43_matrix.md R218). -/
theorem applyBody_ordinary (op : BitVec 4) {k : Coord} (p : Bool) {s : State} (hp : ParamsLegal s) (hl : LeftShiftHolds s)
    (hleft : k ≠ s.params.lshiftCoord) (hright : k ≠ s.params.rshiftCoord) :
    applyBody op (k.setWidth 8) p false s = xwrite k p s := by
  rw [applyBody_coord op k p false s hp, if_neg hleft, if_neg hright,
    invCheck_of_leftShift _ _ (leftShift_applyKey k p false s hp hl hleft)]
  rfl

/-! ### DISPATCH of a hit -/

/-- The state in which DISPATCH acts on entry i: its hit stands in LOOKUP_RES (42_dispatch.md R192, R193). -/
def hitReported (s : State) (i : Nat) : State :=
  writeLookupRes (lookupWord (some (i, xlatEntry s.mem i)) (ShiftOf s)) s

/-- DISPATCH of a KEY event that entry i answers: LOOKUP_RES, then APPLY_BODY of the entry's OUT (42_dispatch.md R193, R194). -/
theorem exec_dispatch_hit {s : State} {i : Nat} (hk : s.ev0.extractLsb' 0 2 = 1#2)
    (hi : FirstHit s (s.ev1.extractLsb' 0 8) (ShiftOf s) i) :
    exec .dispatch s = .next (completeCommand
      (applyBody 2#4 ((xlatEntry s.mem i).extractLsb' 8 8) (!s.ev0.getLsbD 8) ((xlatEntry s.mem i).getLsbD 18)
        (hitReported s i))) := by
  rw [exec_eq, commandBody, dispatchBody_hit 2#4 hk hi]
  rfl

/-! ### The obligations -/

/-- Settles O31: LOOKUP_CORE finds exactly the first applicable entry. -/
theorem lookupReportsFirstApplicable : Obligations.LookupReportsFirstApplicable := by
  intro s c sh
  constructor
  · intro i hi
    refine ⟨lookupWord (some (i, xlatEntry s.mem i)) sh, lookupWord_hit i _ sh, ?_⟩
    rw [exec_eq, commandBody, (lookupCore_some c sh s i _).2 ⟨hi, rfl⟩]
    rfl
  · intro hno
    rw [exec_eq, commandBody, (lookupCore_none c sh s).2 hno, lookupWord_miss]
    rfl

/-- Settles O32: the body of a DISPATCH without a KEY event leaves the state as it is. -/
theorem dispatchIgnoresOtherKinds : Obligations.DispatchIgnoresOtherKinds := by
  intro s hk
  rw [exec_eq, commandBody, dispatchBody_other 2#4 hk]
  rfl

/-- Settles O33: the body of a DISPATCH that misses writes the miss and raises the error. -/
theorem dispatchUnknownKeyIsRecorded : Obligations.DispatchUnknownKeyIsRecorded := by
  intro s hk hno
  rw [exec_eq, commandBody, dispatchBody_miss 2#4 hk hno]
  rfl

/-- Settles O34: without OUT_SHIFT the entry's APPLY_BODY is the write of its coordinate. -/
theorem dispatchWritesOneCrosspoint : Obligations.DispatchWritesOneCrosspoint := by
  intro s i k hp hl hk hi hout hshift hleft hright
  refine ⟨setCross s.matrix k (!s.ev0.getLsbD 8), lookupWord (some (i, xlatEntry s.mem i)) (ShiftOf s),
    fun c => crossAt_setCross s.matrix k c _, lookupWord_hit i _ _, ?_⟩
  rw [exec_dispatch_hit hk hi, hout, hshift, applyBody_ordinary 2#4 _ (s := hitReported s i) hp hl hleft hright]
  rfl

/-- Settles O35: APPLY_BODY of an assigned OUT is the one of an APPLY; of an unassigned OUT it is the error with OP 2. -/
theorem dispatchActsAsApplyOfTheEntry : Obligations.DispatchActsAsApplyOfTheEntry := by
  intro s i hk hi
  refine ⟨lookupWord (some (i, xlatEntry s.mem i)) (ShiftOf s), lookupWord_hit i _ _, fun hp hl hc => ?_, fun hc => ?_⟩
  · rw [exec_dispatch_hit hk hi, applyBody_op_irrelevant (s := hitReported s i) hp hl hc 2#4 3#4, exec_eq]
    rfl
  · rw [exec_dispatch_hit hk hi, applyBody_unassigned 2#4 _ _ _ (hitReported s i) hc]
    rfl

end Sys2Proof.Machine
end

section
/-! SUPPORT. The matrix controller's invariants along every step: the left-shift crosspoint, the invariant check, and the
array behind the pins (43_matrix.md R213, R225, R228). -/

namespace Sys2Proof.Machine

/-! ### The left-shift crosspoint -/

/-- R7 and R225 together: the parameters' constraints are what keeps the other codes off the left-shift crosspoint. -/
def LeftShiftLegal (s : State) : Prop := ParamsLegal s ∧ LeftShiftHolds s

/-- Only the parameters, the matrix and two latches matter. -/
theorem leftShiftLegal_congr {s t : State} (hparams : t.params = s.params) (hmatrix : t.matrix = s.matrix)
    (hlheld : t.lheld = s.lheld) (hcaps : t.caps = s.caps) (h : LeftShiftLegal s) : LeftShiftLegal t := by
  rw [LeftShiftLegal, ParamsLegal, LeftShiftHolds, hparams, hmatrix, hlheld, hcaps]
  exact h

theorem paramsLegal_applyBody (op : BitVec 4) (c : Byte) (p a : Bool) {s : State} (h : ParamsLegal s) :
    ParamsLegal (applyBody op c p a s) := by
  obtain ⟨_, _, _, _, _, _, _, _, _, _, _, e⟩ := matrixStep_applyBody op c p a s
  rw [e]
  exact h

/-- INIT_STATE() opens the left-shift crosspoint and clears both latches, whatever held before (43_matrix.md R219). -/
theorem leftShiftLegal_initState {s : State} (h : ParamsLegal s) : LeftShiftLegal (initState s) := by
  refine ⟨?_, leftShift_initState s⟩
  rw [initState_eq]
  exact h

/-- A power-on reset keeps the parameters and clears M and the latches (70_reset_and_hazards.md R281). -/
theorem leftShiftLegal_resetFrom {s : State} (rest : List HostEvent) (h : ParamsLegal s) :
    LeftShiftLegal (resetFrom s rest) :=
  ⟨h, crossAt_zero s.params.lshiftCoord⟩

theorem leftShiftLegal_hostEvent (e : HostEvent) (s : State) (h : LeftShiftLegal s) : LeftShiftLegal (hostEvent e s) := by
  rcases hostEvent_cases e s with he | hf
  · exact he ▸ leftShiftLegal_resetFrom s.program h.1
  · exact leftShiftLegal_congr hf.params hf.matrix hf.lheld hf.caps h

theorem kept_leftShiftLegal : Kept LeftShiftLegal where
  raise _ _ _ _ h := h
  apply op c p a s h := ⟨paramsLegal_applyBody op c p a h.1, leftShift_applyBody op c p a s h.1 h.2⟩
  init _ h := leftShiftLegal_initState h.1
  lookup _ _ _ h := h
  drop _ h := h
  diag _ _ _ h := h
  work _ _ h := h
  event _ _ _ _ _ _ _ h := h
  mark _ h := h

theorem stepKept_leftShiftLegal : StepKept LeftShiftLegal where
  host := leftShiftLegal_hostEvent
  pop _ _ h := h
  spend _ h := h
  init s _ h := leftShiftLegal_congr (s := initState s) rfl rfl rfl rfl (leftShiftLegal_initState h.1)
  illegal _ _ _ h := h
  run _ i s _ h := kept_leftShiftLegal.commandBody i s h

/-- Settles O13: APPLY_BODY rewrites the left-shift crosspoint wherever it changes caps or lheld, R7 keeps every other write
off it, and a reset clears all three. -/
theorem stepKeepsLeftShiftInvariant : Obligations.StepKeepsLeftShiftInvariant :=
  fun _ _ hp hl => stepKept_leftShiftLegal.step ⟨hp, hl⟩

/-! ### The invariant check -/

/-- R225 with R228: the check finds the left-shift invariant, and has never found anything else. -/
def CheckSilent (s : State) : Prop := LeftShiftLegal s ∧ NoInvariantFault s

/-- INVARIANT_VIOLATION is the only error with its code (60_exceptions.md R250). -/
theorem errorCode_ne_invariantViolation {n : ErrorName} (h : n ≠ .invariantViolation) :
    errorCode n ≠ errorCode .invariantViolation := by
  cases n
  case invariantViolation => exact absurd rfl h
  all_goals decide

/-- An error other than INVARIANT_VIOLATION writes its own code to ERR and leaves INV_FAULT alone. -/
theorem noInvariantFault_raise {n : ErrorName} (op : BitVec 4) {s : State} (hn : n ≠ .invariantViolation)
    (h : NoInvariantFault s) : NoInvariantFault (raise n op s) :=
  ⟨h.1, errorCode_ne_invariantViolation hn⟩

theorem noInvariantFault_congr {s t : State} (hstatus : t.status.invFault = s.status.invFault) (herr : t.err = s.err)
    (h : NoInvariantFault s) : NoInvariantFault t := by
  rw [NoInvariantFault, hstatus, herr]
  exact h

/-- Where the left-shift invariant holds, INV_CHECK() finds it after every code (43_matrix.md R228). -/
theorem noInvariantFault_applyBody (op : BitVec 4) (c : Byte) (p a : Bool) {s : State} (h : CheckSilent s) :
    NoInvariantFault (applyBody op c p a s) := by
  obtain ⟨⟨hp, hl⟩, hn⟩ := h
  rcases applyBody_error op c p a s hp hl with e | ⟨hstatus, herr⟩
  · rw [e]
    exact noInvariantFault_raise op (by decide) hn
  · exact noInvariantFault_congr (congrArg Status.invFault hstatus) herr hn

theorem noInvariantFault_initState {s : State} (h : NoInvariantFault s) : NoInvariantFault (initState s) := by
  rw [initState_eq]
  exact h

theorem noInvariantFault_hostFrame {s t : State} (hf : HostFrame s t) (h : NoInvariantFault s) : NoInvariantFault t := by
  refine ⟨hf.invFault.trans h.1, ?_⟩
  rcases hf.errCode with herr | hne
  · exact herr ▸ h.2
  · exact hne

theorem noInvariantFault_resetFrom (s : State) (rest : List HostEvent) : NoInvariantFault (resetFrom s rest) :=
  ⟨rfl, show (0#4 : BitVec 4) ≠ errorCode .invariantViolation by decide⟩

theorem kept_checkSilent : Kept CheckSilent where
  raise n op s hn h := ⟨kept_leftShiftLegal.raise n op s hn h.1, noInvariantFault_raise op hn h.2⟩
  apply op c p a s h := ⟨kept_leftShiftLegal.apply op c p a s h.1, noInvariantFault_applyBody op c p a h⟩
  init s h := ⟨kept_leftShiftLegal.init s h.1, noInvariantFault_initState h.2⟩
  lookup _ _ _ h := h
  drop _ h := h
  diag _ _ _ h := h
  work _ _ h := h
  event _ _ _ _ _ _ _ h := h
  mark _ h := h

theorem stepKept_checkSilent : StepKept CheckSilent where
  host e s h := ⟨leftShiftLegal_hostEvent e s h.1,
    hostEvent_keeps noInvariantFault_resetFrom noInvariantFault_hostFrame e s h.2⟩
  pop _ _ h := h
  spend _ h := h
  init s _ h := kept_checkSilent.init s h
  illegal v s _ h := kept_checkSilent.raise .illegalCmd (opField v) s (by decide) h
  run _ i s _ h := kept_checkSilent.commandBody i s h

/-- Settles O14: INV_CHECK() runs only where the left-shift invariant holds again, so it raises nothing, and no other error
has code 4. -/
theorem stepNeverRecordsInvariantViolation : Obligations.StepNeverRecordsInvariantViolation :=
  fun _ _ hp hl hn hs => (stepKept_checkSilent.step ⟨⟨hp, hl⟩, hn⟩ hs).2

/-! ### The array behind the pins -/

/-- The array's closed set is the set of crosspoints whose M bit is 1 (43_matrix.md R213). -/
def ArrayShowsMatrix (s : State) : Prop := ∀ c : Coord, arrayClosed s.trace c = crossAt s.matrix c

theorem arrayShowsMatrix_congr {s t : State} (htrace : t.trace = s.trace) (hmatrix : t.matrix = s.matrix)
    (h : ArrayShowsMatrix s) : ArrayShowsMatrix t := by
  rw [ArrayShowsMatrix, htrace, hmatrix]
  exact h

/-- An event that no crosspoint takes leaves the array as it is. -/
theorem arrayShowsMatrix_emit {e : PinEvent} (he : ∀ c closed, arrayAfter c closed e = closed) {s : State}
    (h : ArrayShowsMatrix s) : ArrayShowsMatrix (emit e s) := by
  intro c
  rw [emit_trace, arrayClosed_append, emit_matrix, List.foldl_cons, List.foldl_nil, he, h c]

/-- XWRITE sets the crosspoint in the array and in M alike (43_matrix.md R210). -/
theorem arrayShowsMatrix_xwrite (c : Coord) (v : Bool) {s : State} (h : ArrayShowsMatrix s) :
    ArrayShowsMatrix (xwrite c v s) := by
  intro c'
  rw [xwrite_trace, arrayClosed_append, xwrite_matrix, crossAt_setCross, List.foldl_cons, List.foldl_nil, arrayAfter, h c']
  exact if_congr eq_comm rfl rfl

/-- INIT_STATE() opens the whole array, whatever was closed before (43_matrix.md R219). -/
theorem arrayShowsMatrix_initState (s : State) : ArrayShowsMatrix (initState s) := by
  intro c
  rw [initState_eq]
  exact (arrayClosed_initTrace s.trace c).trans (crossAt_zero c).symm

theorem arrayShowsMatrix_invCheck (op : BitVec 4) {s : State} (h : ArrayShowsMatrix s) :
    ArrayShowsMatrix (invCheck op s) :=
  arrayShowsMatrix_congr (invCheck_trace op s) (invCheck_matrix op s) h

theorem arrayShowsMatrix_applyCaps (p : Bool) {s : State} (h : ArrayShowsMatrix s) : ArrayShowsMatrix (applyCaps p s) := by
  cases p
  · exact h
  · exact arrayShowsMatrix_xwrite _ _ (s := { s with caps := !s.caps }) h

theorem arrayShowsMatrix_applyRestore (p : Bool) {s : State} (h : ArrayShowsMatrix s) :
    ArrayShowsMatrix (applyRestore p s) := by
  cases p
  · exact arrayShowsMatrix_emit (fun _ _ => rfl) (s := { s with restore := false }) h
  · exact arrayShowsMatrix_emit (fun _ _ => rfl) (s := { s with restore := true }) h

theorem arrayShowsMatrix_applyReset (p : Bool) {s : State} (h : ArrayShowsMatrix s) :
    ArrayShowsMatrix (applyReset p s) := by
  cases p
  · exact h
  · exact arrayShowsMatrix_initState s

theorem arrayShowsMatrix_autoShift (p a : Bool) {s : State} (h : ArrayShowsMatrix s) :
    ArrayShowsMatrix (autoShift p a s) := by
  cases a
  · exact h
  · exact arrayShowsMatrix_xwrite _ _ h

/-- APPLY_BODY changes M by XWRITE and INIT_STATE() alone (43_matrix.md R214 to R221). -/
theorem arrayShowsMatrix_applyBody (op : BitVec 4) (c : Byte) (p a : Bool) (s : State) (h : ArrayShowsMatrix s) :
    ArrayShowsMatrix (applyBody op c p a s) := by
  rcases applyBody_cases op c p a s with
    ⟨-, e⟩ | ⟨-, -, e⟩ | ⟨-, -, -, e⟩ | ⟨-, e⟩ | ⟨-, e⟩ | ⟨-, -, e⟩ | ⟨k, -, -, -, e⟩ <;> rw [e]
  · exact arrayShowsMatrix_invCheck op (arrayShowsMatrix_applyCaps p h)
  · exact arrayShowsMatrix_invCheck op (arrayShowsMatrix_applyRestore p h)
  · exact arrayShowsMatrix_invCheck op (arrayShowsMatrix_applyReset p h)
  · exact h
  · exact arrayShowsMatrix_invCheck op (arrayShowsMatrix_xwrite _ _ (s := { s with lheld := p }) h)
  · exact arrayShowsMatrix_invCheck op (arrayShowsMatrix_xwrite _ _ (s := { s with rheld := p }) h)
  · exact arrayShowsMatrix_invCheck op (arrayShowsMatrix_xwrite _ _ (arrayShowsMatrix_autoShift p a h))

theorem kept_arrayShowsMatrix : Kept ArrayShowsMatrix where
  raise _ _ _ _ h := h
  apply := arrayShowsMatrix_applyBody
  init s _ := arrayShowsMatrix_initState s
  lookup _ _ _ h := h
  drop s h :=
    arrayShowsMatrix_emit (fun _ _ => rfl) (s := { s with status := { s.status with frameReady := false } }) h
  diag _ _ _ h := h
  work _ _ h := h
  event _ _ _ _ _ _ _ h := h
  mark _ h := h

/-- While a command is in flight the initial MRESET has run, so the array is mirrored. -/
theorem arrayShowsMatrix_of_job {s : State} {v : Word} (hjob : s.job = some (.command v)) (h : ArrayMirrored s) :
    ArrayShowsMatrix s :=
  h (by rw [hjob]; simp)

/-- A bus event never ends the initial MRESET: a CMD write is accepted only while BUSY is 0. -/
theorem arrayMirrored_hostFrame {s t : State} (hf : HostFrame s t) (hbusy : BusyIffJob s) (h : ArrayMirrored s) :
    ArrayMirrored t := by
  intro hjob
  refine arrayShowsMatrix_congr hf.trace hf.matrix (h fun hreset => ?_)
  rcases hf.job with ⟨hsame, -⟩ | ⟨hidle, -, -⟩
  · exact hjob (hsame.trans hreset)
  · rw [BusyIffJob, hidle, hreset] at hbusy
    cases hbusy

/-- After a power-on reset the initial MRESET is pending again (70_reset_and_hazards.md R281). -/
theorem arrayMirrored_resetFrom (s : State) (rest : List HostEvent) : ArrayMirrored (resetFrom s rest) :=
  fun hjob => absurd rfl hjob

theorem arrayMirrored_hostEvent (e : HostEvent) {s : State} (hbusy : BusyIffJob s) (h : ArrayMirrored s) :
    ArrayMirrored (hostEvent e s) := by
  rcases hostEvent_cases e s with he | hf
  · exact he ▸ arrayMirrored_resetFrom s s.program
  · exact arrayMirrored_hostFrame hf hbusy h

theorem stepKept_arrayMirrored : StepKept fun s => BusyIffJob s ∧ ArrayMirrored s where
  host e s h := ⟨stepKept_busyIffJob.host e s h.1, arrayMirrored_hostEvent e h.1 h.2⟩
  pop _ _ h := h
  spend _ h := h
  init s hjob h := ⟨stepKept_busyIffJob.init s hjob h.1, fun _ => arrayShowsMatrix_initState s⟩
  illegal v s hjob h := ⟨stepKept_busyIffJob.illegal v s hjob h.1,
    fun _ => kept_arrayShowsMatrix.raise .illegalCmd (opField v) s (by decide) (arrayShowsMatrix_of_job hjob h.2)⟩
  run v i s hjob h := ⟨stepKept_busyIffJob.run v i s hjob h.1,
    fun _ => kept_arrayShowsMatrix.commandBody i s (arrayShowsMatrix_of_job hjob h.2)⟩

/-- Settles O18: XWRITE and INIT_STATE() change M and the array alike, and nothing else changes either. -/
theorem stepKeepsArrayMirrored : Obligations.StepKeepsArrayMirrored :=
  fun _ _ hbusy h hs => (stepKept_arrayMirrored.step ⟨hbusy, h⟩ hs).2

end Sys2Proof.Machine
end

section
/-! SUPPORT. MRESET and APPLY as whole commands, code by code, and the levels of the pin events (43_matrix.md R210 to
R230). -/

namespace Sys2Proof.Machine

/-! ### APPLY_BODY where INV_CHECK() finds the invariant -/

theorem exec_apply_eq (c : Byte) (p a : Bool) (s : State) :
    exec (.apply c p a) s = .next (completeCommand (applyBody 3#4 c p a s)) := exec_eq (.apply c p a) s

/-- The caps toggle rewrites the left-shift crosspoint, so INV_CHECK() finds the invariant whatever held before
(43_matrix.md R214). -/
theorem leftShift_applyCaps_press (s : State) : LeftShiftHolds (applyCaps true s) := by
  simp [LeftShiftHolds, applyCaps]

theorem applyBody_caps_press (op : BitVec 4) (a : Bool) (s : State) :
    applyBody op s.params.codeCaps true a s = applyCaps true s := by
  rw [applyBody_caps, invCheck_of_leftShift op _ (leftShift_applyCaps_press s)]

theorem applyBody_caps_release (op : BitVec 4) (a : Bool) {s : State} (hl : LeftShiftHolds s) :
    applyBody op s.params.codeCaps false a s = s := by
  rw [applyBody_caps]
  exact invCheck_of_leftShift op s hl

theorem applyBody_reset_press (op : BitVec 4) (a : Bool) {s : State} (hp : ParamsLegal s) :
    applyBody op s.params.codeReset true a s = initState s := by
  rw [applyBody_reset op true a s hp]
  exact invCheck_of_leftShift op _ (leftShift_initState s)

theorem applyBody_reset_release (op : BitVec 4) (a : Bool) {s : State} (hp : ParamsLegal s) (hl : LeftShiftHolds s) :
    applyBody op s.params.codeReset false a s = s := by
  rw [applyBody_reset op false a s hp]
  exact invCheck_of_leftShift op s hl

theorem applyBody_restore_legal (op : BitVec 4) (p a : Bool) {s : State} (hp : ParamsLegal s) (hl : LeftShiftHolds s) :
    applyBody op s.params.codeRestore p a s = applyRestore p s := by
  rw [applyBody_restore op p a s hp, invCheck_of_leftShift op _ (leftShift_applyRestore p s hl)]

theorem applyBody_leftShift (op : BitVec 4) (p a : Bool) {s : State} (hp : ParamsLegal s) :
    applyBody op (s.params.lshiftCoord.setWidth 8) p a s = applyLeftShift p s := by
  rw [applyBody_coord op _ p a s hp, if_pos rfl, invCheck_of_leftShift op _ (leftShift_applyLeftShift p s)]

theorem applyBody_rightShift (op : BitVec 4) (p a : Bool) {s : State} (hp : ParamsLegal s) (hl : LeftShiftHolds s) :
    applyBody op (s.params.rshiftCoord.setWidth 8) p a s = applyRightShift p s := by
  obtain ⟨-, -, -, -, -, -, hne⟩ := paramsLegal_codes hp
  rw [applyBody_coord op _ p a s hp, if_neg hne.symm, if_pos rfl,
    invCheck_of_leftShift op _ (leftShift_applyRightShift p s hp hl)]

theorem applyBody_key (op : BitVec 4) {k : Coord} (p a : Bool) {s : State} (hp : ParamsLegal s) (hl : LeftShiftHolds s)
    (hleft : k ≠ s.params.lshiftCoord) (hright : k ≠ s.params.rshiftCoord) :
    applyBody op (k.setWidth 8) p a s = applyKey k p a s := by
  rw [applyBody_coord op k p a s hp, if_neg hleft, if_neg hright,
    invCheck_of_leftShift op _ (leftShift_applyKey k p a s hp hl hleft)]

/-! ### The commands, code by code -/

/-- Settles O22: INIT_STATE() in closed form, then the wrapper's end; CODE_RESET runs the same body. -/
theorem mresetAndResetCodeEnterTheInitialState : Obligations.MresetAndResetCodeEnterTheInitialState := by
  intro s
  constructor
  · rw [exec_eq, commandBody, initState_eq]
    rfl
  · intro hp a
    rw [exec_apply_eq, applyBody_reset_press 3#4 a hp, exec_eq, commandBody]

/-- Settles O23: the press inverts caps and writes the left-shift crosspoint once. -/
theorem capsPressToggles : Obligations.CapsPressToggles := by
  intro s a
  refine ⟨_, fun c => crossAt_setCross s.matrix s.params.lshiftCoord c (s.lheld || !s.caps), ?_⟩
  rw [exec_apply_eq, applyBody_caps_press]
  rfl

/-- Settles O24: both releases leave INV_CHECK() with the state before. -/
theorem capsAndResetReleaseDoNothing : Obligations.CapsAndResetReleaseDoNothing := by
  intro s c a hp hl hc
  have hbody : applyBody 3#4 c false a s = s := by
    rcases hc with rfl | rfl
    · exact applyBody_caps_release 3#4 a hl
    · exact applyBody_reset_release 3#4 a hp hl
  rw [exec_apply_eq, hbody]
  rfl

/-- Settles O25: the latch, the event and the pin follow p. -/
theorem restoreCodeDrivesTheLine : Obligations.RestoreCodeDrivesTheLine := by
  intro s p a hp hl
  rw [exec_apply_eq, applyBody_restore_legal 3#4 p a hp hl]
  cases p <;> rfl

/-- Settles O26: each shift coordinate sets its latch and writes its crosspoint once. -/
theorem shiftCoordinatesSetTheirLatches : Obligations.ShiftCoordinatesSetTheirLatches := by
  intro s p a hp hl
  refine ⟨⟨_, fun c => crossAt_setCross s.matrix s.params.lshiftCoord c (p || s.caps), ?left⟩,
    ⟨_, fun c => crossAt_setCross s.matrix s.params.rshiftCoord c p, ?right⟩⟩
  case left =>
    rw [exec_apply_eq, applyBody_leftShift 3#4 p a hp]
    rfl
  case right =>
    rw [exec_apply_eq, applyBody_rightShift 3#4 p a hp hl]
    rfl

/-- M after the press or release of an ordinary key, with the auto-shift write first (43_matrix.md R218). -/
def keyMatrix (r k : Coord) (p a rheld : Bool) (m : BitVec 64) : BitVec 64 :=
  setCross (if a then setCross m r (p || rheld) else m) k p

theorem crossAt_keyMatrix (r k c : Coord) (p a rheld : Bool) (m : BitVec 64) :
    crossAt (keyMatrix r k p a rheld m) c =
      if c = k then p else if a = true ∧ c = r then (p || rheld) else crossAt m c := by
  rw [keyMatrix, crossAt_setCross]
  cases a <;> simp [crossAt_setCross]

/-- An ordinary key in closed form: the last write decides the pins (43_matrix.md R210, R218). -/
theorem applyKey_eq (k : Coord) (p a : Bool) (s : State) :
    applyKey k p a s =
      { s with
        matrix := keyMatrix s.params.rshiftCoord k p a s.rheld s.matrix
        trace := s.trace ++ (if a then [.xwrite s.params.rshiftCoord (p || s.rheld)] else []) ++ [.xwrite k p]
        pins := pinsAfterWrite s.pins k p } := by
  rw [applyKey, autoShift_eq]
  cases a <;> rfl

/-- Settles O27: the key's closed form, its matrix read crosspoint by crosspoint. -/
theorem ordinaryKeyWithAutoShift : Obligations.OrdinaryKeyWithAutoShift := by
  intro s k p a hp hl hleft hright
  refine ⟨keyMatrix s.params.rshiftCoord k p a s.rheld s.matrix, fun c => crossAt_keyMatrix .., ?_⟩
  rw [exec_apply_eq, applyBody_key 3#4 p a hp hl hleft hright, applyKey_eq]
  rfl

/-- Settles O28: the body is the error alone. -/
theorem unassignedCodeIsRecorded : Obligations.UnassignedCodeIsRecorded := by
  intro s c p a hc
  rw [exec_apply_eq, applyBody_unassigned 3#4 c p a s hc]
  rfl

/-! ### A second press -/

/-- The switches: the four latches and M (10_state.md R40 to R44). -/
structure Switches where
  caps : Bool
  lheld : Bool
  rheld : Bool
  restore : Bool
  matrix : BitVec 64

/-- The switches of a state. -/
def switchesOf (s : State) : Switches := ⟨s.caps, s.lheld, s.rheld, s.restore, s.matrix⟩

/-- What a press of a code other than CODE_CAPS makes of the switches (43_matrix.md R215 to R221). -/
def pressSwitches (prm : Params) (c : Byte) (a : Bool) (w : Switches) : Switches :=
  if c = prm.codeRestore then { w with restore := true }
  else if c = prm.codeReset then ⟨false, false, false, false, 0#64⟩
  else if 0x40 ≤ c.toNat then w
  else if c = prm.lshiftCoord.setWidth 8 then { w with lheld := true, matrix := setCross w.matrix prm.lshiftCoord true }
  else if c = prm.rshiftCoord.setWidth 8 then { w with rheld := true, matrix := setCross w.matrix prm.rshiftCoord true }
  else { w with matrix := keyMatrix prm.rshiftCoord (c.extractLsb' 0 6) true a w.rheld w.matrix }

/-- INV_CHECK() writes STATUS and ERR alone (43_matrix.md R227). -/
theorem switchesOf_invCheck (op : BitVec 4) (s : State) : switchesOf (invCheck op s) = switchesOf s := by
  simp only [switchesOf, invCheck_caps, invCheck_lheld, invCheck_rheld, invCheck_restore, invCheck_matrix]

theorem switchesOf_applyBody_press (op : BitVec 4) {c : Byte} (a : Bool) {s : State} (hc : c ≠ s.params.codeCaps) :
    switchesOf (applyBody op c true a s) = pressSwitches s.params c a (switchesOf s) := by
  have hreset : switchesOf (applyReset true s) = ⟨false, false, false, false, 0#64⟩ := by
    show switchesOf (initState s) = _
    rw [initState_eq]
    rfl
  have hkey (k : Coord) : switchesOf (applyKey k true a s) =
      { switchesOf s with matrix := keyMatrix s.params.rshiftCoord k true a s.rheld s.matrix } := by
    rw [applyKey_eq]
    rfl
  rw [applyBody, if_neg hc]
  simp only [apply_ite switchesOf, switchesOf_invCheck, hreset, hkey]
  rfl

/-- The key's second press writes the same values to the same crosspoints. -/
theorem keyMatrix_press_twice (r k : Coord) (a rheld : Bool) (m : BitVec 64) :
    keyMatrix r k true a rheld (keyMatrix r k true a rheld m) = keyMatrix r k true a rheld m := by
  apply matrix_ext
  intro c
  simp only [crossAt_keyMatrix]
  split_ifs <;> rfl

theorem pressSwitches_twice (prm : Params) (c : Byte) (a : Bool) (w : Switches) :
    pressSwitches prm c a (pressSwitches prm c a w) = pressSwitches prm c a w := by
  unfold pressSwitches
  split_ifs
  · rfl
  · rfl
  · rfl
  · rw [setCross_setCross]
  · rw [setCross_setCross]
  · rw [keyMatrix_press_twice]

theorem switchesOf_press {s t : State} {c : Byte} {a : Bool} (hc : c ≠ s.params.codeCaps)
    (h : exec (.apply c true a) s = .next t) :
    switchesOf t = pressSwitches s.params c a (switchesOf s) ∧ t.params = s.params := by
  obtain rfl := exec_next h
  exact ⟨switchesOf_applyBody_press 3#4 a hc, (commandBody_sameConfig (.apply c true a) s).params⟩

/-- Settles O29: what a press makes of the switches it makes of them again. -/
theorem secondPressChangesNoSwitch : Obligations.SecondPressChangesNoSwitch := by
  intro s t u c a _ hc hst htu
  obtain ⟨ht, hparams⟩ := switchesOf_press hc hst
  obtain ⟨hu, -⟩ := switchesOf_press (hparams ▸ hc) htu
  have hsame : switchesOf u = switchesOf t := by rw [hu, ht, hparams, pressSwitches_twice]
  simpa only [switchesOf, Switches.mk.injEq] using hsame

/-! ### The levels of the pin events -/

/-- Settles O30: each waveform's phases, read off; a line at rest before its pulse is where it was after it. -/
theorem pinEventsHaveTheirWaveforms : Obligations.PinEventsHaveTheirWaveforms := by
  intro prm p hstrobe hxrst hrearm
  obtain ⟨row, col, data, strobe, xrst, oe, rearm⟩ := p
  subst hstrobe hxrst hrearm
  refine ⟨fun c v => ?xwrite, ?xreset, fun l => ?restore, ?rearm⟩
  case xwrite => exact ⟨_, _, _, _, rfl, rfl, rfl, rfl, rfl, rfl, rfl, rfl, rfl, rfl, rfl⟩
  case xreset => exact ⟨_, _, rfl, rfl, rfl, rfl, rfl, rfl⟩
  case restore => cases l <;> exact ⟨_, rfl, rfl, rfl⟩
  case rearm => exact ⟨_, _, rfl, rfl, rfl, rfl, rfl⟩

end Sys2Proof.Machine
end

section
/-! SUPPORT. The command wrapper: who moves while a command is in flight, what the engine's step is, and that it comes
(44_control.md R241 to R243). -/

namespace Sys2Proof.Machine

/-! ### Who moves next -/

/-- An event other than WAIT is an access, and lands while the count says so (93_implementation_defined.md I21, log entry 4). -/
theorem engineNext_access {s : State} {e : HostEvent} {rest : List HostEvent} (hprog : s.program = e :: rest)
    (hwait : e ≠ .wait) : engineNext s = (s.hold == 0) := by
  rw [engineNext, hprog]
  cases e with
  | wait => exact absurd rfl hwait
  | _ => rfl

theorem engineNext_iff (s : State) :
    engineNext s = true ↔ s.hold = 0 ∨ s.program = [] ∨ ∃ rest, s.program = .wait :: rest := by
  rcases hprog : s.program with _ | ⟨e, rest⟩
  · simp [engineNext, hprog]
  · by_cases hwait : e = .wait
    · simp [engineNext, hprog, hwait]
    · simp [engineNext_access hprog hwait, hwait]

/-- While accesses are still to land, the one at the program's head does, and counts. -/
theorem step_access {s : State} {j : Job} {e : HostEvent} {rest : List HostEvent} {n : Nat} (hjob : s.job = some j)
    (hhold : s.hold = n + 1) (hprog : s.program = e :: rest) (hwait : e ≠ .wait) :
    step s = .next (hostEvent e { s with program := rest, hold := n }) := by
  have hnext : engineNext s = false := by
    rw [engineNext_access hprog hwait, hhold]
    rfl
  rw [step_spend s j hjob hnext, hostStep_cons (spendAccess s) e rest hprog, spendAccess, hhold, Nat.add_sub_cancel]

/-- Settles O8: `engineNext` branch by branch, and the access at the head with the count one lower. -/
theorem hostAccessMayLandBeforeExecute : Obligations.HostAccessMayLandBeforeExecute := by
  refine fun s j hjob => ⟨engineNext_iff s, fun n hhold => ⟨fun a rest hprog => ?read, fun a v rest hprog => ?write,
    fun rest hprog => ?reset⟩⟩
  case read => exact step_access hjob hhold hprog nofun
  case write => exact step_access hjob hhold hprog nofun
  case reset =>
    have hreset : hostEvent .powerOnReset { s with program := rest, hold := n } = resetFrom s rest := powerOnReset_eq _
    rw [step_access hjob hhold hprog nofun, hreset]

/-! ### The engine's step -/

/-- Settles O5: the engine's step executes the pending word, which decodes to the command. -/
theorem stepRunsTheDecodedCommand : Obligations.StepRunsTheDecodedCommand := by
  intro s v i hjob hdecode _ hnext
  calc step s = executeCommand v s := step_engine s _ hjob hnext
    _ = exec i s := (executeCommand_ok hdecode s).trans (exec_eq i s).symm

/-- Settles O6: the engine's step is the error, then the wrapper's end. -/
theorem illegalWordOnlyRecordsItsError : Obligations.IllegalWordOnlyRecordsItsError := by
  intro s v e hjob hdecode hnext
  calc step s = executeCommand v s := step_engine s _ hjob hnext
    _ = .next (illegalCommand v s) := executeCommand_error hdecode s

/-- Settles O20: NOP has no body before the wrapper's end. -/
theorem nopOnlyCompletes : Obligations.NopOnlyCompletes := fun s => exec_eq .nop s

/-- The engine's step, of a command, of an illegal word or of the initial MRESET, ends the job and clears BUSY. -/
theorem step_engine_completes {s : State} {j : Job} (hjob : s.job = some j) (hnext : engineNext s = true) :
    ∃ t, step s = .next t ∧ t.job = none ∧ t.status.busy = false := by
  rcases step_cases s with ⟨hnone, -⟩ | ⟨-, -, e⟩ | ⟨v, -, -, ⟨i, -, e⟩ | ⟨x, -, e⟩⟩ | ⟨-, -, hhost, -⟩
  · rw [hnone] at hjob
    cases hjob
  · exact ⟨_, e, rfl, rfl⟩
  · exact ⟨_, e, rfl, rfl⟩
  · exact ⟨_, e, rfl, rfl⟩
  · rw [hnext] at hhost
    cases hhost

/-! ### Every job completes -/

/-- Job j is in flight with BUSY 1 and n accesses still to land, and no power-on reset will abandon it. -/
structure InFlight (j : Job) (n : Nat) (s : State) : Prop where
  job : s.job = some j
  busy : s.status.busy = true
  hold : s.hold = n
  noReset : HostEvent.powerOnReset ∉ s.program

theorem inFlight_memRead {j : Job} {n : Nat} {s : State} (a : BusAddr) (h : InFlight j n s) : InFlight j n (memRead a s) :=
  memRead_keeps (InFlight j n) (fun _ _ _ ht => ⟨ht.job, ht.busy, ht.hold, ht.noReset⟩) a s h

/-- BUSY keeps a CMD write from replacing the job and its count (20_memory.md R67). -/
theorem inFlight_memWrite {j : Job} {n : Nat} {s : State} (a : BusAddr) (v : Word) (h : InFlight j n s) :
    InFlight j n (memWrite a v s) := by
  rcases memWrite_cases a v s with ⟨-, -, e⟩ | ⟨-, -, e⟩ | ⟨hfree, e⟩ <;> rw [e]
  · exact ⟨h.job, h.busy, h.hold, h.noReset⟩
  · exact ⟨h.job, h.busy, h.hold, h.noReset⟩
  · rcases writeReg_cases s v (regAt s.params a) with ⟨hcmd, -⟩ | ⟨-, c, st, ie, k, tm, m, e, hbusy, -, -⟩
    · exact absurd ⟨h.busy, .inl hcmd⟩ hfree
    · rw [e]
      exact ⟨h.job, hbusy.trans h.busy, h.hold, h.noReset⟩

theorem inFlight_hostEvent {j : Job} {n : Nat} {s : State} {e : HostEvent} (hwait : e ≠ .wait) (hreset : e ≠ .powerOnReset)
    (h : InFlight j n s) : InFlight j n (hostEvent e s) := by
  cases e with
  | read a => exact inFlight_memRead a h
  | write a v => exact inFlight_memWrite a v h
  | wait => exact absurd rfl hwait
  | powerOnReset => exact absurd rfl hreset

/-- A job in flight completes in this step, or one of the accesses before it lands. -/
theorem inFlight_step {j : Job} {n : Nat} {s : State} (h : InFlight j n s) :
    (∃ t, step s = .next t ∧ t.job = none ∧ t.status.busy = false) ∨
    (∃ m t, n = m + 1 ∧ step s = .next t ∧ InFlight j m t) := by
  by_cases hnext : engineNext s = true
  · exact .inl (step_engine_completes h.job hnext)
  · obtain ⟨hhold, hprog, hwait⟩ : s.hold ≠ 0 ∧ s.program ≠ [] ∧ ¬ ∃ rest, s.program = .wait :: rest := by
      simpa only [engineNext_iff, not_or] using hnext
    obtain ⟨m, hm⟩ := Nat.exists_eq_succ_of_ne_zero hhold
    obtain ⟨e, rest, hcons⟩ := List.exists_cons_of_ne_nil hprog
    have hnowait : e ≠ .wait := fun he => hwait ⟨rest, he ▸ hcons⟩
    obtain ⟨hne, hrest⟩ := List.ne_and_not_mem_of_not_mem_cons (hcons ▸ h.noReset)
    exact .inr ⟨m, _, h.hold.symm.trans hm, step_access h.job hm hcons hnowait,
      inFlight_hostEvent hnowait hne.symm ⟨h.job, h.busy, rfl, hrest⟩⟩

theorem inFlight_completes {j : Job} {n : Nat} {s : State} (h : InFlight j n s) :
    ∃ (k : Nat) (t : State), k ≤ n + 1 ∧ Sys2Proof.core.run k s = .next t ∧ t.job = none ∧ t.status.busy = false := by
  induction n generalizing s with
  | zero =>
    obtain ⟨t, hstep, hdone⟩ := step_engine_completes h.job ((engineNext_iff s).2 (.inl h.hold))
    exact ⟨1, t, le_rfl, run_succ 0 hstep, hdone⟩
  | succ n ih =>
    rcases inFlight_step h with ⟨t, hstep, hdone⟩ | ⟨m, t, hm, hstep, hflight⟩
    · exact ⟨1, t, by omega, run_succ 0 hstep, hdone⟩
    · obtain rfl : n = m := Nat.succ.inj hm
      obtain ⟨k, u, hk, hrun, hdone⟩ := ih hflight
      exact ⟨k + 1, u, Nat.succ_le_succ hk, (run_succ k hstep).trans hrun, hdone⟩

/-- Settles O9: each step lands one of the accesses still to come or completes the job, so the count bounds the run. -/
theorem everyAcceptedCommandCompletes : Obligations.EveryAcceptedCommandCompletes :=
  fun _ _ hjob hbusy hreset => inFlight_completes ⟨hjob, hbusy, rfl, hreset⟩

end Sys2Proof.Machine
end

section
/-! SUPPORT. How a command can fail: once at most, in the last thing it does, and, where the left-shift invariant holds,
before the matrix controller touches a switch; and the interrupt line (60_exceptions.md R253 to R256). -/

namespace Sys2Proof.Machine

/-! ### What a command does last -/

/-- `u` comes from `s` by writes of the result registers and the working registers, and by giving up the frame: the error
state and the switches are as they were (40_frame_decode.md R157, 42_dispatch.md R192). -/
structure ResultWrites (s u : State) : Prop where
  params : u.params = s.params := by rfl
  statusErr : u.status.err = s.status.err := by rfl
  statusErrOvf : u.status.errOvf = s.status.errOvf := by rfl
  err : u.err = s.err := by rfl
  switches : switchesOf u = switchesOf s := by rfl

theorem ResultWrites.trans {s t u : State} (h : ResultWrites s t) (h' : ResultWrites t u) : ResultWrites s u where
  params := h'.params.trans h.params
  statusErr := h'.statusErr.trans h.statusErr
  statusErrOvf := h'.statusErrOvf.trans h.statusErrOvf
  err := h'.err.trans h.err
  switches := h'.switches.trans h.switches

theorem ResultWrites.leftShiftLegal {s u : State} (h : ResultWrites s u) (hl : LeftShiftLegal s) : LeftShiftLegal u :=
  leftShiftLegal_congr h.params (congrArg Switches.matrix h.switches) (congrArg Switches.lheld h.switches)
    (congrArg Switches.caps h.switches) hl

/-- What a command does from `u` before the wrapper's end: nothing more, one error, or one action of the matrix controller. -/
inductive LastAction (u : State) : State → Prop
  | none : LastAction u u
  | error (n : ErrorName) (op : BitVec 4) : LastAction u (raise n op u)
  | apply (op : BitVec 4) (c : Byte) (p a : Bool) : LastAction u (applyBody op c p a u)
  | init : LastAction u (initState u)

theorem dispatchBody_lastAction (op : BitVec 4) (s : State) :
    ∃ u, ResultWrites s u ∧ LastAction u (dispatchBody op s) := by
  rcases dispatch_outcomes s with hk | ⟨hk, hno⟩ | ⟨hk, i, hi⟩
  · rw [dispatchBody_other op hk]
    exact ⟨s, {}, .none⟩
  · rw [dispatchBody_miss op hk hno]
    exact ⟨_, {}, .error _ _⟩
  · rw [dispatchBody_hit op hk hi]
    exact ⟨_, {}, .apply _ _ _ _⟩

theorem deliver_lastAction (d : Bool) (res : FrameResult) (s : State) :
    ∃ u, ResultWrites s u ∧ LastAction u (deliver d res s) := by
  cases res with
  | malformed => exact ⟨writeEvent 0#32 0#32 0#32 s, {}, .error _ _⟩
  | chkFail p => exact ⟨writeEvent 0#32 0#32 p s, {}, .error _ _⟩
  | event e =>
    have hevent : ResultWrites s (markEvent (writeEvent (ev0Word e) (ev1Word e) e.raw s)) := {}
    rw [deliver]
    split
    · obtain ⟨u, hu, hlast⟩ := dispatchBody_lastAction 1#4 (markEvent (writeEvent (ev0Word e) (ev1Word e) e.raw s))
      exact ⟨u, hevent.trans hu, hlast⟩
    · exact ⟨_, hevent, .none⟩

theorem decodeBody_lastAction (d : Bool) (sel : Selected) (s : State) :
    ∃ u, ResultWrites s u ∧ LastAction u (decodeBody d sel s) := by
  rw [decodeBody]
  split
  · obtain ⟨u, hu, hlast⟩ := deliver_lastAction d sel.res (consumeFrame sel s)
    exact ⟨u, ResultWrites.trans {} hu, hlast⟩
  · exact ⟨s, {}, .error _ _⟩

/-- Every command writes results first and can fail only after them, in its last action. -/
theorem commandBody_lastAction (i : Instr) (s : State) : ∃ u, ResultWrites s u ∧ LastAction u (commandBody i s) := by
  cases i with
  | nop => exact ⟨s, {}, .none⟩
  | decode d => exact decodeBody_lastAction d _ s
  | decodeK d => exact decodeBody_lastAction d _ s
  | decodeJ d => exact decodeBody_lastAction d _ s
  | dispatch => exact dispatchBody_lastAction 2#4 s
  | apply c p a => exact ⟨s, {}, .apply _ _ _ _⟩
  | mreset => exact ⟨s, {}, .init⟩
  | rearm => exact ⟨dropFrame s, {}, .none⟩
  | lookup c sh => exact ⟨writeLookupRes (lookupWord (lookupCore c sh s) sh) s, {}, .none⟩

/-! ### At most one error -/

/-- From ERR = 0 to `t`, at most one error was recorded: a second one would have set ERR_OVF (60_exceptions.md R253, R255). -/
def OneErrorAtMost (s t : State) : Prop :=
  s.status.err = false → t.status.errOvf = s.status.errOvf ∧ (t.status.err = false → t.err = s.err)

theorem oneErrorAtMost_of_kept {s t : State} (hstatus : t.status = s.status) (herr : t.err = s.err) : OneErrorAtMost s t :=
  fun _ => ⟨congrArg Status.errOvf hstatus, fun _ => herr⟩

/-- An error recorded at ERR = 0 sets ERR and leaves ERR_OVF (60_exceptions.md R253). -/
theorem oneErrorAtMost_raise (n : ErrorName) (op : BitVec 4) (s : State) : OneErrorAtMost s (raise n op s) := by
  intro hnone
  simp [statusRecord, hnone]

/-- INV_CHECK() is the one place where an action that has recorded nothing can still record an error. -/
theorem oneErrorAtMost_invCheck (op : BitVec 4) {s t : State} (hstatus : t.status = s.status) (herr : t.err = s.err) :
    OneErrorAtMost s (invCheck op t) := by
  rcases invCheck_cases op t with ⟨-, e⟩ | ⟨-, e⟩ <;> rw [e]
  · exact oneErrorAtMost_of_kept hstatus herr
  · intro hnone
    simp [statusRecord, hstatus, hnone]

theorem initState_status (s : State) : (initState s).status = s.status := by rw [initState_eq]

theorem initState_err (s : State) : (initState s).err = s.err := by rw [initState_eq]

theorem applyReset_status (p : Bool) (s : State) : (applyReset p s).status = s.status := by
  cases p
  · rfl
  · exact initState_status s

/-- APPLY_BODY records RESERVED_CODE, or acts without an error and then runs INV_CHECK() (43_matrix.md R222). -/
theorem oneErrorAtMost_applyBody (op : BitVec 4) (c : Byte) (p a : Bool) (s : State) :
    OneErrorAtMost s (applyBody op c p a s) := by
  rcases applyBody_cases op c p a s with
    ⟨-, e⟩ | ⟨-, -, e⟩ | ⟨-, -, -, e⟩ | ⟨-, e⟩ | ⟨-, e⟩ | ⟨-, -, e⟩ | ⟨k, -, -, -, e⟩ <;> rw [e]
  · exact oneErrorAtMost_invCheck op (by cases p <;> rfl) (by cases p <;> rfl)
  · exact oneErrorAtMost_invCheck op (by cases p <;> rfl) (by cases p <;> rfl)
  · exact oneErrorAtMost_invCheck op (applyReset_status p s) (applyReset_err p s)
  · exact oneErrorAtMost_raise _ op s
  · exact oneErrorAtMost_invCheck op rfl rfl
  · exact oneErrorAtMost_invCheck op rfl rfl
  · exact oneErrorAtMost_invCheck op (by cases a <;> rfl) (by cases a <;> rfl)

theorem LastAction.oneErrorAtMost {u t : State} (h : LastAction u t) : OneErrorAtMost u t := by
  cases h with
  | none => exact oneErrorAtMost_of_kept rfl rfl
  | error n op => exact oneErrorAtMost_raise n op u
  | apply op c p a => exact oneErrorAtMost_applyBody op c p a u
  | init => exact oneErrorAtMost_of_kept (initState_status u) (initState_err u)

/-- Settles O50: what precedes a command's last action leaves the error state alone, and the last action records one error
at most. -/
theorem atMostOneErrorPerCommand : Obligations.AtMostOneErrorPerCommand := by
  intro i s t h hnone
  obtain rfl := exec_next h
  obtain ⟨u, hu, hlast⟩ := commandBody_lastAction i s
  obtain ⟨hovf, herr⟩ := hlast.oneErrorAtMost (hu.statusErr.trans hnone)
  exact ⟨hovf.trans hu.statusErrOvf, fun hstill => (herr hstill).trans hu.err⟩

/-! ### An error leaves the switches alone -/

/-- Where the left-shift invariant holds, the matrix controller's only error comes before it touches a switch
(43_matrix.md R224, R228). -/
theorem LastAction.switchesOf_of_error {u t : State} (h : LastAction u t) (hl : LeftShiftLegal u)
    (hnone : u.status.err = false) (hset : t.status.err = true) : switchesOf t = switchesOf u := by
  have hnew : t.status ≠ u.status := fun hsame => by simp [hsame, hnone] at hset
  cases h with
  | none => rfl
  | error n op => rfl
  | apply op c p a =>
    rcases applyBody_error op c p a u hl.1 hl.2 with e | ⟨hsame, -⟩
    · rw [e]
      rfl
    · exact absurd hsame hnew
  | init => exact absurd (initState_status u) hnew

/-- Settles O51: what precedes a command's last action keeps the invariant and the switches, and a last action that records
an error keeps the switches too. -/
theorem errorsLeaveTheMatrixAlone : Obligations.ErrorsLeaveTheMatrixAlone := by
  intro i s t hp hl h hnone hset
  obtain rfl := exec_next h
  obtain ⟨u, hu, hlast⟩ := commandBody_lastAction i s
  have hkept := (hlast.switchesOf_of_error (hu.leftShiftLegal ⟨hp, hl⟩) (hu.statusErr.trans hnone) hset).trans hu.switches
  exact ⟨congrArg Switches.caps hkept, congrArg Switches.lheld hkept, congrArg Switches.rheld hkept,
    congrArg Switches.restore hkept, congrArg Switches.matrix hkept⟩

/-! ### The interrupt line -/

theorem irqOut_iff (s : State) :
    irqOut s = true ↔
      s.status.evNew = true ∧ s.irqEn.evNewIe = true ∨ s.status.err = true ∧ s.irqEn.errIe = true ∨
      s.status.done = true ∧ s.irqEn.doneIe = true := by
  simp only [irqOut, Bool.or_eq_true, Bool.and_eq_true, or_assoc]

/-- Settles O60: the wrapper's end sets DONE, and no body changes IRQ_EN. -/
theorem irqFollowsEnabledCauses : Obligations.IrqFollowsEnabledCauses := by
  refine ⟨irqOut_iff, fun i s t hie h => ?_⟩
  obtain rfl := exec_next h
  have hkept : (commandBody i s).irqEn = s.irqEn := (commandBody_sameConfig i s).irqEn
  exact (irqOut_iff _).2 (.inr (.inr ⟨rfl, by rwa [completeCommand_irqEn, hkept]⟩))

end Sys2Proof.Machine
end

section
/-! SUPPORT. The engine's first step after power-on reset (70_reset_and_hazards.md R281). -/

namespace Sys2Proof.Machine

/-- Settles O11: the engine moves with the initial MRESET pending, and its step is INIT_STATE() in closed form, then
BUSY <- 0. -/
theorem initialResetRunsInitState : Obligations.InitialResetRunsInitState := by
  intro s hjob hnext
  calc step s = .next (initialReset s) := step_engine s .initialReset hjob hnext
    _ = .next _ := congrArg Host.Outcome.next (initialReset_eq s)

end Sys2Proof.Machine
end
